-- ==== Sys2Proof/Word.lean ====
section
/-! DEFINITION. The word types of the block (spec/00_scope.md R3, R6; spec/30_encoding.md R70). -/

namespace Sys2Proof

/-- A byte of the buffer, the seed or a cipher block. -/
abbrev Byte := BitVec 8

/-- A bus word, `BUS_WIDTH = 32` (R3). -/
abbrev Word := BitVec 32

/-- A round count, tick count or time value, `COUNT_BITS = TIME_BITS = 64` (R3). -/
abbrev Count := BitVec 64

/-- A 16-byte block with byte `i` at bits `8i+7 .. 8i` (R56; log entry 1). -/
abbrev Bytes16 := BitVec 128

/-- A 32-byte array with byte `i` at bits `8i+7 .. 8i` (R56; log entry 1). -/
abbrev Bytes32 := BitVec 256

/-- One host access, `A[40:0] = {we, off[7:0], data[31:0]}` (R70). -/
abbrev AccessWord := BitVec 41

end Sys2Proof
end

