-- ==== Sys2Proof/Syntax.lean ====
section
/-! DEFINITION. The block's instruction set: the host accesses of spec/30_encoding.md R72 and the command words of R73,
one constructor per row of spec/opcode_table.json.

Operands. `lane` is `off[1:0]`, which takes no part in selection (R52, R72); `ignored` is `data[31:4]` of a command
write (R71). Both are kept in the syntax so that an encoding loses no bit, and no meaning reads them (log entry 10).
`k` is the index `off[4:2]` of a buffer or seed word; `off` is the whole byte offset of a reserved row that covers
several words; `data` is the write data. -/

namespace Sys2Proof

inductive Instr where
  /-- CMD_ACK: command code 0x0 (R131). -/
  | cmdAck (ignored : BitVec 28) (lane : BitVec 2)
  /-- CMD_TRANSFORM: command code 0x1 (R132). -/
  | cmdTransform (ignored : BitVec 28) (lane : BitVec 2)
  /-- CMD_CALIBRATE: command code 0x2 (R134). -/
  | cmdCalibrate (ignored : BitVec 28) (lane : BitVec 2)
  /-- CMD_CLEAR: command code 0x3 (R136). -/
  | cmdClear (ignored : BitVec 28) (lane : BitVec 2)
  /-- CMD_RESERVED_4_7: command codes 0x4 to 0x7 (R137). -/
  | cmdReserved47 (code : BitVec 4) (ignored : BitVec 28) (lane : BitVec 2)
  /-- CMD_RESERVED_8_F: command codes 0x8 to 0xF (R137). -/
  | cmdReserved8F (code : BitVec 4) (ignored : BitVec 28) (lane : BitVec 2)
  /-- RD_CMD (R103). -/
  | rdCmd (lane : BitVec 2)
  /-- RD_STATUS (R105). -/
  | rdStatus (lane : BitVec 2)
  /-- WR_STATUS (R106). -/
  | wrStatus (data : Word) (lane : BitVec 2)
  /-- RD_IRQ_EN (R107). -/
  | rdIrqEn (lane : BitVec 2)
  /-- WR_IRQ_EN (R108). -/
  | wrIrqEn (data : Word) (lane : BitVec 2)
  /-- RD_ROUNDS_LO (R109). -/
  | rdRoundsLo (lane : BitVec 2)
  /-- WR_ROUNDS_LO (R110). -/
  | wrRoundsLo (data : Word) (lane : BitVec 2)
  /-- RD_ROUNDS_HI (R109). -/
  | rdRoundsHi (lane : BitVec 2)
  /-- WR_ROUNDS_HI (R111). -/
  | wrRoundsHi (data : Word) (lane : BitVec 2)
  /-- RD_BUDGET_LO (R112). -/
  | rdBudgetLo (lane : BitVec 2)
  /-- WR_BUDGET_LO (R113). -/
  | wrBudgetLo (data : Word) (lane : BitVec 2)
  /-- RD_BUDGET_HI (R112). -/
  | rdBudgetHi (lane : BitVec 2)
  /-- WR_BUDGET_HI (R114). -/
  | wrBudgetHi (data : Word) (lane : BitVec 2)
  /-- RD_RESULT_LO (R115). -/
  | rdResultLo (lane : BitVec 2)
  /-- WR_RESULT_LO (R116). -/
  | wrResultLo (data : Word) (lane : BitVec 2)
  /-- RD_RESULT_HI (R115). -/
  | rdResultHi (lane : BitVec 2)
  /-- WR_RESULT_HI (R116). -/
  | wrResultHi (data : Word) (lane : BitVec 2)
  /-- RD_BUF (R117). -/
  | rdBuf (k : BitVec 3) (lane : BitVec 2)
  /-- WR_BUF (R118). -/
  | wrBuf (k : BitVec 3) (data : Word) (lane : BitVec 2)
  /-- RD_SEED (R119). -/
  | rdSeed (k : BitVec 3) (lane : BitVec 2)
  /-- WR_SEED (R120). -/
  | wrSeed (k : BitVec 3) (data : Word) (lane : BitVec 2)
  /-- RD_RESERVED_0C (R121). -/
  | rdReserved0C (lane : BitVec 2)
  /-- WR_RESERVED_0C (R122). -/
  | wrReserved0C (data : Word) (lane : BitVec 2)
  /-- RD_RESERVED_28_2C (R121). -/
  | rdReserved282C (off : BitVec 8)
  /-- WR_RESERVED_28_2C (R122). -/
  | wrReserved282C (off : BitVec 8) (data : Word)
  /-- RD_RESERVED_30_3C (R121). -/
  | rdReserved303C (off : BitVec 8)
  /-- WR_RESERVED_30_3C (R122). -/
  | wrReserved303C (off : BitVec 8) (data : Word)
  /-- RD_RESERVED_80_FC (R121). -/
  | rdReserved80FC (off : BitVec 8)
  /-- WR_RESERVED_80_FC (R122). -/
  | wrReserved80FC (off : BitVec 8) (data : Word)
  deriving DecidableEq, Repr

end Sys2Proof
end

