-- ==== Sys2Proof/WellFormed.lean ====
section
/-! DEFINITION. Which terms of `Instr` an access word stands for: a reserved command code or a reserved offset must lie
in its row's range (spec/30_encoding.md R72, R73). Every other field admits every value. -/

namespace Sys2Proof

/-- The row CMD_RESERVED_4_7 holds the codes 0x4 to 0x7. -/
def codeIn47 (code : BitVec 4) : Bool := code.extractLsb' 2 2 == 1#2

/-- The row CMD_RESERVED_8_F holds the codes 0x8 to 0xF. -/
def codeIn8F (code : BitVec 4) : Bool := code.extractLsb' 3 1 == 1#1

/-- The row of offsets 0x28 to 0x2F (words 0x28 and 0x2C). -/
def offIn282C (off : BitVec 8) : Bool := off.extractLsb' 3 5 == 0b00101#5

/-- The row of offsets 0x30 to 0x3F (words 0x30 to 0x3C). -/
def offIn303C (off : BitVec 8) : Bool := off.extractLsb' 4 4 == 0b0011#4

/-- The row of offsets 0x80 to 0xFF (words 0x80 to 0xFC). -/
def offIn80FC (off : BitVec 8) : Bool := off.extractLsb' 7 1 == 1#1

/-- An instruction whose fields lie in its row of the table. -/
def Instr.wellFormed : Instr → Bool
  | .cmdAck _ _ | .cmdTransform _ _ | .cmdCalibrate _ _ | .cmdClear _ _ => true
  | .cmdReserved47 code _ _ => codeIn47 code
  | .cmdReserved8F code _ _ => codeIn8F code
  | .rdCmd _ | .rdStatus _ | .wrStatus _ _ | .rdIrqEn _ | .wrIrqEn _ _ => true
  | .rdRoundsLo _ | .wrRoundsLo _ _ | .rdRoundsHi _ | .wrRoundsHi _ _ => true
  | .rdBudgetLo _ | .wrBudgetLo _ _ | .rdBudgetHi _ | .wrBudgetHi _ _ => true
  | .rdResultLo _ | .wrResultLo _ _ | .rdResultHi _ | .wrResultHi _ _ => true
  | .rdBuf _ _ | .wrBuf _ _ _ | .rdSeed _ _ | .wrSeed _ _ _ => true
  | .rdReserved0C _ | .wrReserved0C _ _ => true
  | .rdReserved282C off | .wrReserved282C off _ => offIn282C off
  | .rdReserved303C off | .wrReserved303C off _ => offIn303C off
  | .rdReserved80FC off | .wrReserved80FC off _ => offIn80FC off

end Sys2Proof
end

