-- ==== Sys2Proof/Decode.lean ====
section
/-! DEFINITION. The decoder of access words and command words (spec/30_encoding.md R70 to R76) and, after it, the encoder.
The decoder is total on access words (R76); a number that is no access word is rejected by name. -/

namespace Sys2Proof

/-! ## Fields of an access word (R70, R71) -/

/-- `we`, bit 40. -/
def AccessWord.we (w : AccessWord) : BitVec 1 := w.extractLsb' 40 1

/-- `off[7:2]`, the word offset that selects the register (R72). -/
def AccessWord.word (w : AccessWord) : BitVec 6 := w.extractLsb' 34 6

/-- `off[1:0]`, ignored by the block (R52). -/
def AccessWord.lane (w : AccessWord) : BitVec 2 := w.extractLsb' 32 2

/-- `data[31:0]`. -/
def AccessWord.data (w : AccessWord) : Word := w.extractLsb' 0 32

/-- `{we, off[7:2], off[1:0], data}` put together again (R70). -/
def AccessWord.ofFields (we : BitVec 1) (word : BitVec 6) (lane : BitVec 2) (data : Word) : AccessWord :=
  we ++ word ++ lane ++ data

/-! ## Selection -/

/-- The rows of R73, selected by `data[3:0]` of a command write. -/
def decodeCommand (data : Word) (lane : BitVec 2) : Instr :=
  let code : BitVec 4 := data.extractLsb' 0 4
  let ignored : BitVec 28 := data.extractLsb' 4 28
  if code = 0#4 then .cmdAck ignored lane
  else if code = 1#4 then .cmdTransform ignored lane
  else if code = 2#4 then .cmdCalibrate ignored lane
  else if code = 3#4 then .cmdClear ignored lane
  else if codeIn47 code then .cmdReserved47 code ignored lane
  else .cmdReserved8F code ignored lane

/-- The rows of R72 with `we = 0`, selected by `off[7:2]`. -/
def decodeRead (word : BitVec 6) (lane : BitVec 2) : Instr :=
  if word = 0x00#6 then .rdCmd lane
  else if word = 0x01#6 then .rdStatus lane
  else if word = 0x02#6 then .rdIrqEn lane
  else if word = 0x03#6 then .rdReserved0C lane
  else if word = 0x04#6 then .rdRoundsLo lane
  else if word = 0x05#6 then .rdRoundsHi lane
  else if word = 0x06#6 then .rdBudgetLo lane
  else if word = 0x07#6 then .rdBudgetHi lane
  else if word = 0x08#6 then .rdResultLo lane
  else if word = 0x09#6 then .rdResultHi lane
  else if offIn282C (word ++ lane) then .rdReserved282C (word ++ lane)
  else if offIn303C (word ++ lane) then .rdReserved303C (word ++ lane)
  else if word.extractLsb' 3 3 = 0b010#3 then .rdBuf (word.extractLsb' 0 3) lane
  else if word.extractLsb' 3 3 = 0b011#3 then .rdSeed (word.extractLsb' 0 3) lane
  else .rdReserved80FC (word ++ lane)

/-- The rows of R72 with `we = 1`, selected by `off[7:2]` and, at offset 0x00, by the command code. -/
def decodeWrite (word : BitVec 6) (lane : BitVec 2) (data : Word) : Instr :=
  if word = 0x00#6 then decodeCommand data lane
  else if word = 0x01#6 then .wrStatus data lane
  else if word = 0x02#6 then .wrIrqEn data lane
  else if word = 0x03#6 then .wrReserved0C data lane
  else if word = 0x04#6 then .wrRoundsLo data lane
  else if word = 0x05#6 then .wrRoundsHi data lane
  else if word = 0x06#6 then .wrBudgetLo data lane
  else if word = 0x07#6 then .wrBudgetHi data lane
  else if word = 0x08#6 then .wrResultLo data lane
  else if word = 0x09#6 then .wrResultHi data lane
  else if offIn282C (word ++ lane) then .wrReserved282C (word ++ lane) data
  else if offIn303C (word ++ lane) then .wrReserved303C (word ++ lane) data
  else if word.extractLsb' 3 3 = 0b010#3 then .wrBuf (word.extractLsb' 0 3) data lane
  else if word.extractLsb' 3 3 = 0b011#3 then .wrSeed (word.extractLsb' 0 3) data lane
  else .wrReserved80FC (word ++ lane) data

/-- Every access word is one instruction (R76). The data bits of a read are not driven and are not looked at (R70). -/
def decode (w : AccessWord) : Instr :=
  if w.we = 1#1 then decodeWrite w.word w.lane w.data else decodeRead w.word w.lane

/-- Why a number is no access word. -/
inductive DecodeReject where
  /-- it has a bit above bit 40, so it is not one 41-bit access word (R70, R79). -/
  | widerThanAccessWord
  deriving DecidableEq, Repr

/-- The decoder on any number, read with bit 0 its least significant bit (log entry 16). -/
def decodeNumber (n : Nat) : Except DecodeReject Instr :=
  if n < 2 ^ 41 then .ok (decode (BitVec.ofNat 41 n)) else .error .widerThanAccessWord

/-- What the decoder gives for a table word of `nbits` bits (every bit above them is 0). -/
def decodeTableWord (nbits w : Nat) : Option Instr :=
  match decodeNumber (w % 2 ^ nbits) with
  | .ok i => some i
  | .error _ => none

/-! ## The encoder -/

/-- A read of word offset `word`; the data bits of a read are taken as 0 (R70). -/
def encodeRead (word : BitVec 6) (lane : BitVec 2) : AccessWord := AccessWord.ofFields 0#1 word lane 0#32

/-- A write of word offset `word`. -/
def encodeWrite (word : BitVec 6) (lane : BitVec 2) (data : Word) : AccessWord :=
  AccessWord.ofFields 1#1 word lane data

/-- A command write: offset 0x00 with `data = {ignored, code}` (R71). -/
def encodeCommand (code : BitVec 4) (ignored : BitVec 28) (lane : BitVec 2) : AccessWord :=
  encodeWrite 0x00#6 lane (ignored ++ code)

/-- The access word of an instruction, from the encodings of R72 and R73. -/
def encode : Instr → AccessWord
  | .cmdAck ignored lane => encodeCommand 0x0#4 ignored lane
  | .cmdTransform ignored lane => encodeCommand 0x1#4 ignored lane
  | .cmdCalibrate ignored lane => encodeCommand 0x2#4 ignored lane
  | .cmdClear ignored lane => encodeCommand 0x3#4 ignored lane
  | .cmdReserved47 code ignored lane => encodeCommand code ignored lane
  | .cmdReserved8F code ignored lane => encodeCommand code ignored lane
  | .rdCmd lane => encodeRead 0x00#6 lane
  | .rdStatus lane => encodeRead 0x01#6 lane
  | .wrStatus data lane => encodeWrite 0x01#6 lane data
  | .rdIrqEn lane => encodeRead 0x02#6 lane
  | .wrIrqEn data lane => encodeWrite 0x02#6 lane data
  | .rdRoundsLo lane => encodeRead 0x04#6 lane
  | .wrRoundsLo data lane => encodeWrite 0x04#6 lane data
  | .rdRoundsHi lane => encodeRead 0x05#6 lane
  | .wrRoundsHi data lane => encodeWrite 0x05#6 lane data
  | .rdBudgetLo lane => encodeRead 0x06#6 lane
  | .wrBudgetLo data lane => encodeWrite 0x06#6 lane data
  | .rdBudgetHi lane => encodeRead 0x07#6 lane
  | .wrBudgetHi data lane => encodeWrite 0x07#6 lane data
  | .rdResultLo lane => encodeRead 0x08#6 lane
  | .wrResultLo data lane => encodeWrite 0x08#6 lane data
  | .rdResultHi lane => encodeRead 0x09#6 lane
  | .wrResultHi data lane => encodeWrite 0x09#6 lane data
  | .rdBuf k lane => encodeRead (0b010#3 ++ k) lane
  | .wrBuf k data lane => encodeWrite (0b010#3 ++ k) lane data
  | .rdSeed k lane => encodeRead (0b011#3 ++ k) lane
  | .wrSeed k data lane => encodeWrite (0b011#3 ++ k) lane data
  | .rdReserved0C lane => encodeRead 0x03#6 lane
  | .wrReserved0C data lane => encodeWrite 0x03#6 lane data
  | .rdReserved282C off => encodeRead (off.extractLsb' 2 6) (off.extractLsb' 0 2)
  | .wrReserved282C off data => encodeWrite (off.extractLsb' 2 6) (off.extractLsb' 0 2) data
  | .rdReserved303C off => encodeRead (off.extractLsb' 2 6) (off.extractLsb' 0 2)
  | .wrReserved303C off data => encodeWrite (off.extractLsb' 2 6) (off.extractLsb' 0 2) data
  | .rdReserved80FC off => encodeRead (off.extractLsb' 2 6) (off.extractLsb' 0 2)
  | .wrReserved80FC off data => encodeWrite (off.extractLsb' 2 6) (off.extractLsb' 0 2) data

/-! ## The opcode table (spec/opcode_table.json): mask and match of every row -/

/-- A row: an access word is one of the row's when its bits under `mask` are `match`. -/
structure OpcodeRow where
  mask    : AccessWord
  pattern : AccessWord
  deriving DecidableEq, Repr

/-- The row's word test. -/
def OpcodeRow.covers (r : OpcodeRow) (w : AccessWord) : Bool := w &&& r.mask == r.pattern

/-- The row of spec/opcode_table.json that an instruction belongs to. -/
def Instr.row : Instr → OpcodeRow
  | .cmdAck _ _ => ⟨0x1FC0000000F#41, 0x10000000000#41⟩
  | .cmdTransform _ _ => ⟨0x1FC0000000F#41, 0x10000000001#41⟩
  | .cmdCalibrate _ _ => ⟨0x1FC0000000F#41, 0x10000000002#41⟩
  | .cmdClear _ _ => ⟨0x1FC0000000F#41, 0x10000000003#41⟩
  | .cmdReserved47 _ _ _ => ⟨0x1FC0000000C#41, 0x10000000004#41⟩
  | .cmdReserved8F _ _ _ => ⟨0x1FC00000008#41, 0x10000000008#41⟩
  | .rdCmd _ => ⟨0x1FC00000000#41, 0x00000000000#41⟩
  | .rdStatus _ => ⟨0x1FC00000000#41, 0x00400000000#41⟩
  | .wrStatus _ _ => ⟨0x1FC00000000#41, 0x10400000000#41⟩
  | .rdIrqEn _ => ⟨0x1FC00000000#41, 0x00800000000#41⟩
  | .wrIrqEn _ _ => ⟨0x1FC00000000#41, 0x10800000000#41⟩
  | .rdRoundsLo _ => ⟨0x1FC00000000#41, 0x01000000000#41⟩
  | .wrRoundsLo _ _ => ⟨0x1FC00000000#41, 0x11000000000#41⟩
  | .rdRoundsHi _ => ⟨0x1FC00000000#41, 0x01400000000#41⟩
  | .wrRoundsHi _ _ => ⟨0x1FC00000000#41, 0x11400000000#41⟩
  | .rdBudgetLo _ => ⟨0x1FC00000000#41, 0x01800000000#41⟩
  | .wrBudgetLo _ _ => ⟨0x1FC00000000#41, 0x11800000000#41⟩
  | .rdBudgetHi _ => ⟨0x1FC00000000#41, 0x01C00000000#41⟩
  | .wrBudgetHi _ _ => ⟨0x1FC00000000#41, 0x11C00000000#41⟩
  | .rdResultLo _ => ⟨0x1FC00000000#41, 0x02000000000#41⟩
  | .wrResultLo _ _ => ⟨0x1FC00000000#41, 0x12000000000#41⟩
  | .rdResultHi _ => ⟨0x1FC00000000#41, 0x02400000000#41⟩
  | .wrResultHi _ _ => ⟨0x1FC00000000#41, 0x12400000000#41⟩
  | .rdBuf _ _ => ⟨0x1E000000000#41, 0x04000000000#41⟩
  | .wrBuf _ _ _ => ⟨0x1E000000000#41, 0x14000000000#41⟩
  | .rdSeed _ _ => ⟨0x1E000000000#41, 0x06000000000#41⟩
  | .wrSeed _ _ _ => ⟨0x1E000000000#41, 0x16000000000#41⟩
  | .rdReserved0C _ => ⟨0x1FC00000000#41, 0x00C00000000#41⟩
  | .wrReserved0C _ _ => ⟨0x1FC00000000#41, 0x10C00000000#41⟩
  | .rdReserved282C _ => ⟨0x1F800000000#41, 0x02800000000#41⟩
  | .wrReserved282C _ _ => ⟨0x1F800000000#41, 0x12800000000#41⟩
  | .rdReserved303C _ => ⟨0x1F000000000#41, 0x03000000000#41⟩
  | .wrReserved303C _ _ => ⟨0x1F000000000#41, 0x13000000000#41⟩
  | .rdReserved80FC _ => ⟨0x18000000000#41, 0x08000000000#41⟩
  | .wrReserved80FC _ _ => ⟨0x18000000000#41, 0x18000000000#41⟩

end Sys2Proof
end

