-- ==== Sys2Proof/Config.lean ====
section
/-! DEFINITION. The block's parameters (spec/00_scope.md R3, R4, R5) and the model's free values.
An `opaque` constant has no body: a proof about it holds whatever it is. -/

namespace Sys2Proof

/-- The time-source port of one cycle: `time_valid` and `time_now[63:0]` (spec/60_exceptions.md R214). -/
structure TimePort where
  valid : Bool
  now   : Count
  deriving DecidableEq, Repr, Inhabited

/-- The external block cipher, `Enc(k, b) = encryptBlock(deriveSchedule(k), b)` (R4): OPEN (log entry 6). -/
opaque Config.enc : Bytes32 → Bytes16 → Bytes16

/-- `E^n(k, b)`: `n`-fold application of `Enc` under one key (R5). -/
def Config.encPow (k : Bytes32) : Nat → Bytes16 → Bytes16
  | 0, b => b
  | n + 1, b => Config.enc k (Config.encPow k n b)

/-- `BATCH_SIZE`, fixed at 8 for this hardware (R3; spec/92_eei_decisions.md D2; log entry 12). -/
def Config.batchSize : Nat := 8

/-- `TICK_HZ`, the frequency of the time source (R3): OPEN. No step reads it (log entry 12). -/
opaque Config.tickHz : Nat

/-- `REG_BASE`, the platform address of register offset 0x00 (R3, R50): OPEN. No step reads it (log entry 12). -/
opaque Config.regBase : Nat

/-- `IRQ_LINE`, the platform line `irq` is routed to (spec/60_exceptions.md R210): OPEN. No step reads it (log entry 12). -/
opaque Config.irqLine : Nat

/-- FREE VALUE (log entry 4): the time port in a clock cycle that the listed inputs do not reach. -/
opaque Config.freeTime : Nat → TimePort

/-- FREE VALUE (log entry 6): `enc_out` of a core that answers while it holds no schedule, for which R173 states
nothing. -/
opaque Config.freeEncOut : Nat → Bytes16

end Sys2Proof
end

