-- ==== Sys2Proof/Machine/State.lean ====
section
/-! DEFINITION. The state of the block (spec/10_state.md), the inputs of a clock cycle, the reasons a step can stop, and
the state after reset. -/

namespace Sys2Proof.Machine

/-- The sequencer's states (R35). -/
inductive Fsm where
  | idle | keysetup | t0 | batchCheck | encA | encB | sample | finish | fail
  deriving DecidableEq, Repr

/-- The accepted command that `op` latches (R36). -/
inductive Op where
  | transform | calibrate
  deriving DecidableEq, Repr

/-- The error codes of `STATUS.ERR` (spec/60_exceptions.md R201). Codes 4 to 7 are never produced, so they have no
constructor (log entry 9). -/
inductive ErrCode where
  | none | invalidArgument | clockUnavailable | illegalCommand
  deriving DecidableEq, Repr

/-- What the outside world drives in one clock cycle. -/
structure CycleInput where
  /-- the reset input `rst` (spec/70_reset_and_hazards.md R230) -/
  rst    : Bool
  /-- the host access on the bus, if any (spec/20_memory.md R61) -/
  access : Option AccessWord
  /-- `ks_ack` (spec/42_round_engine.md R170) -/
  ksAck  : Bool
  /-- `enc_ack` (R171) -/
  encAck : Bool
  /-- `enc_out`: none for a core that keeps its duty R173 and returns `Enc(k, b)`; some v for the value v it drives
  instead (spec/93_implementation_defined.md I19) -/
  encOut : Option Bytes16
  /-- `time_valid` and `time_now` (spec/60_exceptions.md R214) -/
  time   : TimePort
  deriving DecidableEq, Repr

/-- The state of the block, field by field as INVENTORY.md lists it. -/
structure State where
  /-- `BUF[0..31]` (R20) -/
  buf       : Bytes32
  /-- `SEED[0..31]` (R21) -/
  seed      : Bytes32
  /-- `BUF_WMASK` (R22) -/
  bufWmask  : BitVec 8
  /-- `SEED_WMASK` (R23) -/
  seedWmask : BitVec 8
  /-- `ROUNDS` (R24) -/
  rounds    : Count
  /-- `BUDGET` (R25) -/
  budget    : Count
  /-- `RESULT` (R26) -/
  result    : Count
  /-- `STATUS.DONE` (R29) -/
  done      : Bool
  /-- `STATUS.ERR` (R30) -/
  err       : ErrCode
  /-- `STATUS.SAT` (R31) -/
  sat       : Bool
  /-- `STATUS.WR_IGNORED` (R32) -/
  wrIgnored : Bool
  /-- `IRQ_EN.IE` (R33) -/
  ie        : Bool
  /-- `fsm` (R35) -/
  fsm       : Fsm
  /-- `op` (R36) -/
  op        : Op
  /-- `rc` (R37) -/
  rc        : Count
  /-- `bc`, 4 bits for `BATCH_SIZE = 8` (R38) -/
  bc        : BitVec 4
  /-- `acc` (R39) -/
  acc       : Count
  /-- `t0` (R40) -/
  t0        : Count
  /-- `sched`, the schedule the cipher core holds: the key it was derived from (R41) -/
  sched     : Option Bytes32
  /-- the model's own: the data the last cycle's bus read returned to the host (R7; log entry 5) -/
  busRead   : Option Word
  /-- the model's own: the inputs of the coming clock cycles, in order (log entry 3) -/
  script    : List CycleInput
  /-- the model's own: a counter of clock cycles that indexes the free values (log entry 4) -/
  cycle     : Nat
  deriving DecidableEq, Repr

/-- The faults of the block: none. "The block never traps" (spec/60_exceptions.md R200), so no step raises a fault and
this type has no constructor. -/
inductive Fault where
  deriving DecidableEq, Repr

/-- Why the model gives an instruction no meaning. -/
inductive Refusal where
  /-- The instruction has no meaning yet. Raised by no arm of this model: every row of the opcode table is modelled.
  Safe: a refusal proves nothing. -/
  | notModelled (mnemonic : String)
  deriving DecidableEq, Repr

/-- The state after reset: R44, field by field; the last three fields are the model's own (log entries 3, 4, 5). -/
def State.reset : State where
  buf       := 0#256
  seed      := 0#256
  bufWmask  := 0x00#8
  seedWmask := 0x00#8
  rounds    := 0#64
  budget    := 0#64
  result    := 0#64
  done      := false
  err       := .none
  sat       := false
  wrIgnored := false
  ie        := false
  fsm       := .idle
  op        := .transform
  rc        := 0#64
  bc        := 0#4
  acc       := 0#64
  t0        := 0#64
  sched     := none
  busRead   := none
  script    := []
  cycle     := 0

end Sys2Proof.Machine
end

