-- ==== Sys2Proof/Machine/Operands.lean ====
section
/-! DEFINITION. The operand forms: byte lanes and words of the buffer and the seed, the two halves, the two words of a
64-bit register, the write masks (spec/20_memory.md R53 to R57; spec/30_encoding.md R75). -/

namespace Sys2Proof.Machine

/-- Byte `i` of a byte array carried as a bit vector: bits `8i+7 .. 8i` (R56). -/
def byteAt {w : Nat} (v : BitVec w) (i : Nat) : Byte := v.extractLsb' (8 * i) 8

/-- `v` with byte `i` replaced. -/
def setByte {w : Nat} (v : BitVec w) (i : Nat) (b : Byte) : BitVec w :=
  (v &&& ~~~(BitVec.setWidth w 0xFF#8 <<< (8 * i))) ||| (BitVec.setWidth w b <<< (8 * i))

/-- The word at index `k` of a 32-byte register array, little-endian: `{V[4k+3], V[4k+2], V[4k+1], V[4k]}` (R53, R54). -/
def wordAt (v : Bytes32) (k : BitVec 3) : Word :=
  byteAt v (4 * k.toNat + 3) ++ byteAt v (4 * k.toNat + 2) ++ byteAt v (4 * k.toNat + 1) ++ byteAt v (4 * k.toNat)

/-- `V[4k+j] <- data[8j+7:8j]` for `j = 0..3` (spec/40_host_access.md R118, R120). -/
def setWord (v : Bytes32) (k : BitVec 3) (data : Word) : Bytes32 :=
  setByte (setByte (setByte (setByte v (4 * k.toNat) (byteAt data 0)) (4 * k.toNat + 1) (byteAt data 1))
    (4 * k.toNat + 2) (byteAt data 2)) (4 * k.toNat + 3) (byteAt data 3)

/-- The write mask with bit `k` set (R22, R23). -/
def setMaskBit (mask : BitVec 8) (k : BitVec 3) : BitVec 8 := mask ||| (1#8 <<< k.toNat)

/-- Block A, bytes 0 to 15 (spec/10_state.md R20). -/
def blockA (v : Bytes32) : Bytes16 := v.extractLsb' 0 128

/-- Block B, bytes 16 to 31 (R20). -/
def blockB (v : Bytes32) : Bytes16 := v.extractLsb' 128 128

/-- The buffer `A ++ B` in index order: block A holds the low byte indexes. -/
def joinBlocks (a b : Bytes16) : Bytes32 := b ++ a

/-- `BUF[0..15] <- o`. -/
def setBlockA (v : Bytes32) (o : Bytes16) : Bytes32 := joinBlocks o (blockB v)

/-- `BUF[16..31] <- o`. -/
def setBlockB (v : Bytes32) (o : Bytes16) : Bytes32 := joinBlocks (blockA v) o

/-- The `_LO` register of a 64-bit register: bits 31:0 (R55). -/
def loWord (v : Count) : Word := v.extractLsb' 0 32

/-- The `_HI` register of a 64-bit register: bits 63:32 (R55). -/
def hiWord (v : Count) : Word := v.extractLsb' 32 32

/-- `V[31:0] <- data`, the other half unchanged (R55). -/
def setLo (v : Count) (data : Word) : Count := hiWord v ++ data

/-- `V[63:32] <- data`, the other half unchanged (R55). -/
def setHi (v : Count) (data : Word) : Count := data ++ loWord v

/-- The largest count, `2^64 - 1` (spec/42_round_engine.md R150). -/
def maxCount : Count := BitVec.allOnes 64

/-- `BATCH_SIZE` as a 64-bit count. -/
def batchCount : Count := BitVec.ofNat 64 Config.batchSize

/-- `BATCH_SIZE` in the width of `bc` (R38). -/
def batchPosition : BitVec 4 := BitVec.ofNat 4 Config.batchSize

/-- `elapsed(t) = (t - t0) mod 2^64` (spec/42_round_engine.md R161). -/
def elapsed (s : State) (t : Count) : Count := t - s.t0

end Sys2Proof.Machine
end

