-- ==== Sys2Proof/Machine/Flags.lean ====
section
/-! DEFINITION. The status register's fields, what a command write clears, the argument check of a command, and the
interrupt level (spec/10_state.md R27 to R33; spec/60_exceptions.md R201, R210). -/

namespace Sys2Proof.Machine

/-- `STATUS.BUSY`, 1 exactly when `fsm != IDLE` (R28). -/
def State.busy (s : State) : Bool := s.fsm != .idle

/-- The three bits of `STATUS.ERR` (R201). -/
def ErrCode.bits : ErrCode → BitVec 3
  | .none => 0#3
  | .invalidArgument => 1#3
  | .clockUnavailable => 2#3
  | .illegalCommand => 3#3

/-- The word a read of STATUS returns (spec/40_host_access.md R105). -/
def statusWord (s : State) : Word :=
  0#8 ++ s.seedWmask ++ s.bufWmask ++ 0#1 ++ BitVec.ofBool s.wrIgnored ++ BitVec.ofBool s.sat ++ s.err.bits ++
    BitVec.ofBool s.done ++ BitVec.ofBool s.busy

/-- What every command write does before its code is decoded (spec/41_commands.md R130). -/
def clearFlags (s : State) : State :=
  { s with done := false, err := .none, sat := false, wrIgnored := false }

/-- Both arguments of a command are present: every word of the buffer and of the seed has been written (R22, R23, R132). -/
def argumentsPresent (s : State) : Bool := s.bufWmask == 0xFF#8 && s.seedWmask == 0xFF#8

/-- The interrupt level `irq = IE and (DONE or ERR != 0)` (R210). -/
def State.irq (s : State) : Bool := s.ie && (s.done || s.err != .none)

end Sys2Proof.Machine
end

