-- ==== Sys2Proof/Machine/Ops.lean ====
section
/-! DEFINITION. The operations the instructions and the sequencer share. -/

namespace Sys2Proof.Machine

/-- What a meaning answers. -/
abbrev Result := Host.Outcome State Fault Refusal

/-! ## Host accesses -/

/-- `BusRead`: the access returns `v` and changes nothing else (spec/20_memory.md R59; spec/40_host_access.md R100). -/
def busReturn (v : Word) (s : State) : State := { s with busRead := some v }

/-- A write that arrives while busy is dropped and sets `WR_IGNORED` (R102). -/
def dropWrite (s : State) : State := { s with wrIgnored := true }

/-- `BusWrite`: dropped while busy, else the row's write rule (R101). -/
def busWrite (effect : State → State) (s : State) : State :=
  if s.busy then dropWrite s else effect s

/-- A command write: while idle the sticky flags are cleared, then the code's effect follows (spec/41_commands.md R104,
R130). -/
def commandWrite (effect : State → State) (s : State) : State :=
  busWrite (fun s => effect (clearFlags s)) s

/-! ## Errors

The block has no trap (spec/60_exceptions.md R200): taking an error is recording its code in `STATUS.ERR`, and the
"return" from it is the next command write, which clears the flags (R212). -/

/-- An error is recorded in `STATUS.ERR`; nothing else changes (R201, R202). -/
def recordError (code : ErrCode) (s : State) : State := { s with err := code }

/-- `raise Error(code)` inside the sequencer moves it to FAIL, whose step records the code (R203). -/
def raiseError (s : State) : State := { s with fsm := .fail }

/-! ## Ending a command (spec/42_round_engine.md R162, R163, R172) -/

/-- The seed and its mask are wiped. -/
def wipeSeed (s : State) : State := { s with seed := 0#256, seedWmask := 0x00#8 }

/-- `sched_clear()`: the cipher core destroys the schedule (R172). -/
def schedClear (s : State) : State := { s with sched := none }

/-- The common end of FINISH and FAIL. -/
def endCommand (s : State) : State := { schedClear (wipeSeed s) with fsm := .idle }

/-! ## The inputs of a cycle -/

/-- A cycle in which the outside world does nothing: no reset, no access, no answer of the cipher core; what the time
port shows is free (log entries 3, 4). -/
def quietInput (cycle : Nat) : CycleInput where
  rst    := false
  access := none
  ksAck  := false
  encAck := false
  encOut := none
  time   := Config.freeTime cycle

/-- The inputs of the present cycle: the first listed ones, or a quiet cycle past the list's end. -/
def cycleInput (s : State) : CycleInput :=
  match s.script with
  | [] => quietInput s.cycle
  | inp :: _ => inp

/-- The cycle begins: its inputs are taken off the list, and no read has returned data in it yet. -/
def beginCycle (s : State) : State :=
  { s with script := s.script.tail, cycle := s.cycle + 1, busRead := none }

/-- `TimeSample()`: none is `unavailable`, some t is `ok(t)` (spec/60_exceptions.md R215). -/
def timeSample (inp : CycleInput) : Option Count := if inp.time.valid then some inp.time.now else none

/-- The `enc_out` that answers `CipherEnc(b)`: the value the core drives, or `Enc(k, b)` of a dutiful core whose schedule
is that of key `k` (R173); with no schedule nothing is stated, and the value is free (log entry 6). -/
def encAnswer (inp : CycleInput) (s : State) (b : Bytes16) : Bytes16 :=
  match inp.encOut with
  | some v => v
  | none =>
    match s.sched with
    | some k => Config.enc k b
    | none => Config.freeEncOut s.cycle

end Sys2Proof.Machine
end

