-- ==== Sys2Proof/Machine/Command.lean ====
section
/-! DEFINITION. The commands, at the moment they are written (spec/41_commands.md R130 to R138). -/

namespace Sys2Proof.Machine

/-- A command that needs the buffer and the seed: rejected with INVALID_ARGUMENT when a word of either is unwritten, else
accepted (R132, R134, R138). -/
def startCommand (accept : State → State) (s : State) : State :=
  if argumentsPresent s then accept s else recordError .invalidArgument s

/-- An accepted TRANSFORM (R132). -/
def acceptTransform (s : State) : State := { s with op := .transform, rc := 0#64, fsm := .keysetup }

/-- An accepted CALIBRATE (R134). -/
def acceptCalibrate (s : State) : State := { s with op := .calibrate, acc := 0#64, bc := 0#4, fsm := .keysetup }

/-- CLEAR zeroes the data registers and the masks, and IRQ_EN stays; the state after it equals the reset state but for
IRQ_EN, so the internal registers take their R44 values too (R136; log entry 19). The sequencer is idle and the core holds
no schedule already (R46). -/
def clearData (s : State) : State :=
  { s with buf := 0#256, bufWmask := 0x00#8, seed := 0#256, seedWmask := 0x00#8, rounds := 0#64, budget := 0#64,
           result := 0#64, op := .transform, rc := 0#64, bc := 0#4, acc := 0#64, t0 := 0#64 }

/-- CMD_ACK: nothing beyond the clearing of the flags (R131). -/
def execCmdAck (s : State) : Result := .next (commandWrite id s)

/-- CMD_TRANSFORM (R132). -/
def execCmdTransform (s : State) : Result := .next (commandWrite (startCommand acceptTransform) s)

/-- CMD_CALIBRATE (R134). -/
def execCmdCalibrate (s : State) : Result := .next (commandWrite (startCommand acceptCalibrate) s)

/-- CMD_CLEAR (R136). -/
def execCmdClear (s : State) : Result := .next (commandWrite clearData s)

/-- CMD_RESERVED_4_7: ILLEGAL_COMMAND (R137). -/
def execCmdReserved47 (s : State) : Result := .next (commandWrite (recordError .illegalCommand) s)

/-- CMD_RESERVED_8_F: ILLEGAL_COMMAND (R137). -/
def execCmdReserved8F (s : State) : Result := .next (commandWrite (recordError .illegalCommand) s)

end Sys2Proof.Machine
end

