-- ==== Sys2Proof/Machine/HostRead.lean ====
section
/-! DEFINITION. The read accesses (spec/40_host_access.md R103 to R121). -/

namespace Sys2Proof.Machine

/-- RD_CMD: reads 0 in every state (R103). -/
def execRdCmd (s : State) : Result := .next (busReturn 0#32 s)

/-- RD_STATUS (R105). -/
def execRdStatus (s : State) : Result := .next (busReturn (statusWord s) s)

/-- RD_IRQ_EN: `zext_32(IE)` (R107). -/
def execRdIrqEn (s : State) : Result := .next (busReturn (BitVec.setWidth 32 (BitVec.ofBool s.ie)) s)

/-- RD_ROUNDS_LO (R109). -/
def execRdRoundsLo (s : State) : Result := .next (busReturn (loWord s.rounds) s)

/-- RD_ROUNDS_HI (R109). -/
def execRdRoundsHi (s : State) : Result := .next (busReturn (hiWord s.rounds) s)

/-- RD_BUDGET_LO (R112). -/
def execRdBudgetLo (s : State) : Result := .next (busReturn (loWord s.budget) s)

/-- RD_BUDGET_HI (R112). -/
def execRdBudgetHi (s : State) : Result := .next (busReturn (hiWord s.budget) s)

/-- RD_RESULT_LO (R115). -/
def execRdResultLo (s : State) : Result := .next (busReturn (loWord s.result) s)

/-- RD_RESULT_HI (R115). -/
def execRdResultHi (s : State) : Result := .next (busReturn (hiWord s.result) s)

/-- RD_BUF: 0 while busy, else the word (R117). -/
def execRdBuf (k : BitVec 3) (s : State) : Result :=
  .next (busReturn (if s.busy then 0#32 else wordAt s.buf k) s)

/-- RD_SEED: the seed is never readable (R119). -/
def execRdSeed (s : State) : Result := .next (busReturn 0#32 s)

/-- RD_RESERVED_0C (R121). -/
def execRdReserved0C (s : State) : Result := .next (busReturn 0#32 s)

/-- RD_RESERVED_28_2C (R121). -/
def execRdReserved282C (s : State) : Result := .next (busReturn 0#32 s)

/-- RD_RESERVED_30_3C (R121). -/
def execRdReserved303C (s : State) : Result := .next (busReturn 0#32 s)

/-- RD_RESERVED_80_FC (R121). -/
def execRdReserved80FC (s : State) : Result := .next (busReturn 0#32 s)

end Sys2Proof.Machine
end

