-- ==== Sys2Proof/Machine/HostWrite.lean ====
section
/-! DEFINITION. The write accesses other than commands (spec/40_host_access.md R106 to R122). -/

namespace Sys2Proof.Machine

/-- WR_STATUS: no effect while idle (R106). -/
def execWrStatus (s : State) : Result := .next (busWrite id s)

/-- WR_IRQ_EN: `IE <- data[0]` (R108). -/
def execWrIrqEn (data : Word) (s : State) : Result := .next (busWrite (fun s => { s with ie := data.getLsbD 0 }) s)

/-- WR_ROUNDS_LO (R110). -/
def execWrRoundsLo (data : Word) (s : State) : Result :=
  .next (busWrite (fun s => { s with rounds := setLo s.rounds data }) s)

/-- WR_ROUNDS_HI (R111). -/
def execWrRoundsHi (data : Word) (s : State) : Result :=
  .next (busWrite (fun s => { s with rounds := setHi s.rounds data }) s)

/-- WR_BUDGET_LO (R113). -/
def execWrBudgetLo (data : Word) (s : State) : Result :=
  .next (busWrite (fun s => { s with budget := setLo s.budget data }) s)

/-- WR_BUDGET_HI (R114). -/
def execWrBudgetHi (data : Word) (s : State) : Result :=
  .next (busWrite (fun s => { s with budget := setHi s.budget data }) s)

/-- WR_RESULT_LO: no effect while idle (R116). -/
def execWrResultLo (s : State) : Result := .next (busWrite id s)

/-- WR_RESULT_HI: no effect while idle (R116). -/
def execWrResultHi (s : State) : Result := .next (busWrite id s)

/-- WR_BUF: the word's four bytes and its mask bit (R118). -/
def execWrBuf (k : BitVec 3) (data : Word) (s : State) : Result :=
  .next (busWrite (fun s => { s with buf := setWord s.buf k data, bufWmask := setMaskBit s.bufWmask k }) s)

/-- WR_SEED: the word's four bytes and its mask bit (R120). -/
def execWrSeed (k : BitVec 3) (data : Word) (s : State) : Result :=
  .next (busWrite (fun s => { s with seed := setWord s.seed k data, seedWmask := setMaskBit s.seedWmask k }) s)

/-- WR_RESERVED_0C: no effect while idle (R122). -/
def execWrReserved0C (s : State) : Result := .next (busWrite id s)

/-- WR_RESERVED_28_2C: no effect while idle (R122). -/
def execWrReserved282C (s : State) : Result := .next (busWrite id s)

/-- WR_RESERVED_30_3C: no effect while idle (R122). -/
def execWrReserved303C (s : State) : Result := .next (busWrite id s)

/-- WR_RESERVED_80_FC: no effect while idle (R122). -/
def execWrReserved80FC (s : State) : Result := .next (busWrite id s)

end Sys2Proof.Machine
end

