-- ==== Sys2Proof/Machine/Dispatch.lean ====
section
/-! DEFINITION. One arm per constructor of Instr (spec/opcode_table.json). -/

namespace Sys2Proof.Machine

def exec (i : Instr) (s : State) : Host.Outcome State Fault Refusal :=
  match i with
  | .cmdAck _ _ => Sys2Proof.Machine.execCmdAck s
  | .cmdTransform _ _ => Sys2Proof.Machine.execCmdTransform s
  | .cmdCalibrate _ _ => Sys2Proof.Machine.execCmdCalibrate s
  | .cmdClear _ _ => Sys2Proof.Machine.execCmdClear s
  | .cmdReserved47 _ _ _ => Sys2Proof.Machine.execCmdReserved47 s
  | .cmdReserved8F _ _ _ => Sys2Proof.Machine.execCmdReserved8F s
  | .rdCmd _ => Sys2Proof.Machine.execRdCmd s
  | .rdStatus _ => Sys2Proof.Machine.execRdStatus s
  | .wrStatus _ _ => Sys2Proof.Machine.execWrStatus s
  | .rdIrqEn _ => Sys2Proof.Machine.execRdIrqEn s
  | .wrIrqEn data _ => Sys2Proof.Machine.execWrIrqEn data s
  | .rdRoundsLo _ => Sys2Proof.Machine.execRdRoundsLo s
  | .wrRoundsLo data _ => Sys2Proof.Machine.execWrRoundsLo data s
  | .rdRoundsHi _ => Sys2Proof.Machine.execRdRoundsHi s
  | .wrRoundsHi data _ => Sys2Proof.Machine.execWrRoundsHi data s
  | .rdBudgetLo _ => Sys2Proof.Machine.execRdBudgetLo s
  | .wrBudgetLo data _ => Sys2Proof.Machine.execWrBudgetLo data s
  | .rdBudgetHi _ => Sys2Proof.Machine.execRdBudgetHi s
  | .wrBudgetHi data _ => Sys2Proof.Machine.execWrBudgetHi data s
  | .rdResultLo _ => Sys2Proof.Machine.execRdResultLo s
  | .wrResultLo _ _ => Sys2Proof.Machine.execWrResultLo s
  | .rdResultHi _ => Sys2Proof.Machine.execRdResultHi s
  | .wrResultHi _ _ => Sys2Proof.Machine.execWrResultHi s
  | .rdBuf k _ => Sys2Proof.Machine.execRdBuf k s
  | .wrBuf k data _ => Sys2Proof.Machine.execWrBuf k data s
  | .rdSeed _ _ => Sys2Proof.Machine.execRdSeed s
  | .wrSeed k data _ => Sys2Proof.Machine.execWrSeed k data s
  | .rdReserved0C _ => Sys2Proof.Machine.execRdReserved0C s
  | .wrReserved0C _ _ => Sys2Proof.Machine.execWrReserved0C s
  | .rdReserved282C _ => Sys2Proof.Machine.execRdReserved282C s
  | .wrReserved282C _ _ => Sys2Proof.Machine.execWrReserved282C s
  | .rdReserved303C _ => Sys2Proof.Machine.execRdReserved303C s
  | .wrReserved303C _ _ => Sys2Proof.Machine.execWrReserved303C s
  | .rdReserved80FC _ => Sys2Proof.Machine.execRdReserved80FC s
  | .wrReserved80FC _ _ => Sys2Proof.Machine.execWrReserved80FC s

end Sys2Proof.Machine
end

