-- ==== Sys2Proof/Machine/Sequencer.lean ====
section
/-! DEFINITION. The round engine: one definition per sequencer state, and the transition table over them
(spec/42_round_engine.md R150 to R165). A state that no run reaches takes the same steps (log entry 18). -/

namespace Sys2Proof.Machine

/-- KEYSETUP: waits for `ks_ack`, in its first cycle too (log entry 7); then the schedule is that of SEED, and the command
goes on (R151 to R153). -/
def stepKeysetup (inp : CycleInput) (s : State) : State :=
  if inp.ksAck then
    { s with
      sched := some s.seed
      fsm := match s.op with
        | .transform => if s.rounds = 0#64 then .finish else .encA
        | .calibrate => .t0 }
  else s

/-- T0: one time sample; `unavailable` is the error CLOCK_UNAVAILABLE (R157). -/
def stepT0 (inp : CycleInput) (s : State) : State :=
  match timeSample inp with
  | none => raiseError s
  | some t => { s with t0 := t, fsm := .batchCheck }

/-- BATCH_CHECK: one more batch must fit the accumulator, else the saturated finish (R158, R164). -/
def stepBatchCheck (s : State) : State :=
  if maxCount - batchCount < s.acc then { s with sat := true, fsm := .finish }
  else { s with bc := 0#4, fsm := .encA }

/-- ENC_A: waits for `enc_ack`; then block A is the answer (R154). -/
def stepEncA (inp : CycleInput) (s : State) : State :=
  if inp.encAck then { s with buf := setBlockA s.buf (encAnswer inp s (blockA s.buf)), fsm := .encB } else s

/-- Round completion of TRANSFORM; the new `rc` is compared (R156). In an unreachable state `rc` can wrap (log entry
17). -/
def roundCompleteTransform (s : State) : State :=
  { s with rc := s.rc + 1#64, fsm := if s.rc + 1#64 = s.rounds then .finish else .encA }

/-- Round completion of CALIBRATE (R159). -/
def roundCompleteCalibrate (s : State) : State :=
  if s.bc + 1#4 = batchPosition then { s with bc := s.bc + 1#4, acc := s.acc + batchCount, fsm := .sample }
  else { s with bc := s.bc + 1#4, fsm := .encA }

/-- `round_complete()` (R155). -/
def roundComplete (s : State) : State :=
  match s.op with
  | .transform => roundCompleteTransform s
  | .calibrate => roundCompleteCalibrate s

/-- ENC_B: waits for `enc_ack`; then block B is the answer and the round is complete (R155). -/
def stepEncB (inp : CycleInput) (s : State) : State :=
  if inp.encAck then roundComplete { s with buf := setBlockB s.buf (encAnswer inp s (blockB s.buf)) } else s

/-- SAMPLE: one time sample, compared with the budget (R160, R161). -/
def stepSample (inp : CycleInput) (s : State) : State :=
  match timeSample inp with
  | none => raiseError s
  | some t => { s with fsm := if s.budget ≤ elapsed s t then .finish else .batchCheck }

/-- The count a command reports: `rc` after TRANSFORM, `acc` after CALIBRATE (R162). -/
def commandCount (s : State) : Count :=
  match s.op with
  | .transform => s.rc
  | .calibrate => s.acc

/-- FINISH: the count is reported, DONE is set, the seed and the schedule are destroyed (R162). -/
def stepFinish (s : State) : State := endCommand { s with result := commandCount s, done := true }

/-- FAIL: the error is recorded, the seed and the schedule are destroyed; RESULT and BUF stay (R163). -/
def stepFail (s : State) : State := endCommand (recordError .clockUnavailable s)

/-- The sequencer's transition of a cycle that began in the sequencer state `start` (R150). An acknowledge that nothing
waits for changes nothing (R174). -/
def sequencerStep (start : Fsm) (inp : CycleInput) (s : State) : State :=
  match start with
  | .idle => s
  | .keysetup => stepKeysetup inp s
  | .t0 => stepT0 inp s
  | .batchCheck => stepBatchCheck s
  | .encA => stepEncA inp s
  | .encB => stepEncB inp s
  | .sample => stepSample inp s
  | .finish => stepFinish s
  | .fail => stepFail s

end Sys2Proof.Machine
end

