-- ==== Sys2Proof/Machine/Cycle.lean ====
section
/-! DEFINITION. One clock cycle of the block (spec/20_memory.md R61; spec/60_exceptions.md R208;
spec/70_reset_and_hazards.md R230, R242). -/

namespace Sys2Proof.Machine

/-- What a bus access returns in a reset cycle: a read returns 0, a write nothing (R230). -/
def resetRead (access : Option AccessWord) : Option Word :=
  match access with
  | none => none
  | some w => if w.we = 1#1 then none else some 0#32

/-- A cycle with `rst = 1`: every state to its reset value, a read answered with 0, a write lost (R230, R231). The inputs
still to come and the cycle counter are no state of the block and are kept (log entry 13). -/
def resetCycle (inp : CycleInput) (s : State) : State :=
  { State.reset with busRead := resetRead inp.access, script := s.script, cycle := s.cycle }

/-- The host access of the cycle, if there is one: its word is decoded and the instruction is performed (R61, R72). -/
def performAccess (access : Option AccessWord) (s : State) : Result :=
  match access with
  | none => .next s
  | some w => exec (decode w) s

/-- One clock cycle: reset wins (R208); else the access sees the state of the cycle's start, and the sequencer's step of
the cycle, chosen by that same state, takes effect after it (R61). -/
def clockCycle (s : State) : Result :=
  if (cycleInput s).rst then .next (resetCycle (cycleInput s) (beginCycle s))
  else
    match performAccess (cycleInput s).access (beginCycle s) with
    | .next s' => .next (sequencerStep s.fsm (cycleInput s) s')
    | .fault r => .fault r
    | .refused r => .refused r

/-- The access word the host puts on the bus in the coming cycle, before every input already listed (log entry 11). -/
def presentAccess (s : State) (w : AccessWord) : State :=
  { s with script := { quietInput s.cycle with access := some w } :: s.script }

end Sys2Proof.Machine
end

