-- ==== Sys2Proof/Machine/Step.lean ====
section
/-! DEFINITION. The step: one clock cycle of the block. -/

namespace Sys2Proof.Machine

/-- One clock cycle (spec/70_reset_and_hazards.md R242; log entry 2). -/
def step (s : State) : Host.Outcome State Fault Refusal := Sys2Proof.Machine.clockCycle s

/-- `s` with the access word `w` on the bus in its next cycle, so that the next step performs exactly that access. -/
def State.withFetchWord (s : State) (nbits w : Nat) : State :=
  Sys2Proof.Machine.presentAccess s (BitVec.ofNat 41 (w % 2 ^ nbits))

end Sys2Proof.Machine
end

