-- ==== Sys2Proof/Machine/Ports.lean ====
section
/-! DEFINITION. The outputs of the block in a cycle, functions of its state at the start of the cycle and of `rst`
(spec/10_state.md R43; spec/42_round_engine.md R170 to R172; spec/60_exceptions.md R210; spec/70_reset_and_hazards.md R230). -/

namespace Sys2Proof.Machine

/-- The cipher port's outputs and the interrupt. -/
structure Ports where
  /-- `ks_req` with `ks_key`: none when `ks_req = 0` (log entry 8) -/
  setup      : Option Bytes32
  /-- `enc_req` with `enc_in`: none when `enc_req = 0` (log entry 8) -/
  encrypt    : Option Bytes16
  /-- `sched_clear` -/
  schedClear : Bool
  /-- `irq` -/
  irq        : Bool
  deriving DecidableEq, Repr

/-- `CipherSetup(SEED)` is requested while `fsm = KEYSETUP` (R151, R170). -/
def setupRequest (s : State) : Option Bytes32 :=
  match s.fsm with
  | .keysetup => some s.seed
  | _ => none

/-- `CipherEnc` of block A is requested in ENC_A, of block B in ENC_B (R154, R155, R171). -/
def encryptRequest (s : State) : Option Bytes16 :=
  match s.fsm with
  | .encA => some (blockA s.buf)
  | .encB => some (blockB s.buf)
  | _ => none

/-- The outputs in a cycle: during reset no request, no interrupt and `sched_clear` (R230); else the requests of the
sequencer state, the `sched_clear` pulse of FINISH and FAIL (R172) and the interrupt level (R210). -/
def ports (inp : CycleInput) (s : State) : Ports :=
  if inp.rst then { setup := none, encrypt := none, schedClear := true, irq := false }
  else
    { setup := setupRequest s
      encrypt := encryptRequest s
      schedClear := s.fsm == .finish || s.fsm == .fail
      irq := s.irq }

/-- A port transaction that completes in a cycle: a key setup, an encryption of one block, or a time sample. -/
inductive PortEvent where
  | setup (key : Bytes32)
  | encrypt (block : Bytes16)
  | sample (answer : Option Count)
  deriving DecidableEq, Repr

/-- The port transactions that complete in a cycle without reset (R150, R170, R171, R215): at most one. -/
def portEvents (inp : CycleInput) (s : State) : List PortEvent :=
  match s.fsm with
  | .keysetup => if inp.ksAck then [.setup s.seed] else []
  | .encA => if inp.encAck then [.encrypt (blockA s.buf)] else []
  | .encB => if inp.encAck then [.encrypt (blockB s.buf)] else []
  | .t0 | .sample => [.sample (timeSample inp)]
  | .idle | .batchCheck | .finish | .fail => []

end Sys2Proof.Machine
end

