-- ==== Sys2Proof/Safety.lean ====
section
/-! DEFINITION. What counts as a safe state and a lawful run of the block: the invariant of spec/10_state.md R46, the runs
of one command, and the duties of the block's environment (spec/70_reset_and_hazards.md R241). -/

namespace Sys2Proof.Machine

/-! ## The invariant -/

/-- The states of the sequencer in which a cipher transaction of a round is requested. -/
def Fsm.inRound (f : Fsm) : Bool := f == .encA || f == .encB

/-- The states only CALIBRATE reaches (R157, R158, R160, R163). -/
def Fsm.onlyCalibrate (f : Fsm) : Bool := f == .t0 || f == .batchCheck || f == .sample || f == .fail

/-- The invariant of every reachable state (R46 and the derived bounds of R30, R37 to R39, R45). -/
structure BlockInv (s : State) : Prop where
  /-- idle, and until key setup is answered, the core holds no schedule (R46, R172). -/
  no_schedule : s.fsm = .idle ∨ s.fsm = .keysetup → s.sched = none
  /-- from the answer on it holds the schedule of the command's seed (R46). -/
  schedule : s.fsm ≠ .idle → s.fsm ≠ .keysetup → s.sched = some s.seed
  /-- a command runs only on a fully written buffer and seed (R46, R105). -/
  arguments : s.fsm ≠ .idle → s.bufWmask = 0xFF#8 ∧ s.seedWmask = 0xFF#8
  /-- no outcome stands in STATUS while a command runs (R130, R162, R163). -/
  no_outcome : s.fsm ≠ .idle → s.done = false ∧ s.err = .none
  /-- DONE and an error never hold together (R30). -/
  done_or_error : s.done = true → s.err = .none
  /-- SAT stands with DONE, or is about to (R31). -/
  saturated : s.sat = true → s.done = true ∨ (s.fsm = .finish ∧ s.op = .calibrate)
  /-- TRANSFORM samples no time and does not fail (R133, R205). -/
  transform_path : s.op = .transform → s.fsm.onlyCalibrate = false
  /-- TRANSFORM counts from 0 (R132). -/
  transform_start : s.op = .transform → s.fsm = .keysetup → s.rc = 0#64
  /-- inside the rounds of TRANSFORM, `rc < ROUNDS` (R46). -/
  transform_rounds : s.op = .transform → s.fsm.inRound = true → s.rc < s.rounds
  /-- TRANSFORM finishes with `rc = ROUNDS` (R156). -/
  transform_finish : s.op = .transform → s.fsm = .finish → s.rc = s.rounds
  /-- inside the rounds of CALIBRATE, `bc < BATCH_SIZE` (R46), and one more batch fits the accumulator (R158). -/
  calibrate_batch : s.op = .calibrate → s.fsm.inRound = true →
    s.bc.toNat < Config.batchSize ∧ s.acc.toNat + Config.batchSize ≤ 2 ^ 64 - 1
  /-- the accumulator of a running CALIBRATE counts whole batches (R39). -/
  calibrate_acc : s.op = .calibrate → s.fsm ≠ .idle → s.acc.toNat % Config.batchSize = 0
  /-- an unwritten word of the buffer holds zero (R44, R45). -/
  unwritten_buf : ∀ k : BitVec 3, s.bufWmask.getLsbD k.toNat = false → wordAt s.buf k = 0#32
  /-- an unwritten word of the seed holds zero: no old key survives the wipe (R44, R162, R163). -/
  unwritten_seed : ∀ k : BitVec 3, s.seedWmask.getLsbD k.toNat = false → wordAt s.seed k = 0#32

/-! ## What a host access cannot change while the block is busy -/

/-- The state less what a host access of a busy block may change (`WR_IGNORED` and the data a read returned) and less the
model's own bookkeeping: two states with equal `engine` agree in every other register and internal state. -/
def State.engine (s : State) : State :=
  { s with wrIgnored := false, busRead := none, script := [], cycle := 0 }

/-! ## Commands and their runs -/

/-- The block in the cycle after a command was accepted (R132, R134). -/
structure Accepted (o : Op) (s : State) : Prop where
  fsm : s.fsm = .keysetup
  op : s.op = o
  buf_written : s.bufWmask = 0xFF#8
  seed_written : s.seedWmask = 0xFF#8
  flags : s.done = false ∧ s.err = .none ∧ s.sat = false
  no_schedule : s.sched = none
  counters : match o with
    | .transform => s.rc = 0#64
    | .calibrate => s.acc = 0#64 ∧ s.bc = 0#4

/-- A run of `n` cycles from `s` to `t`, busy at the start of each, with the port transactions that complete in it, in
order. `env p s` is what is asked of the environment in each cycle: `s` is the state at the cycle's start and `p` the
sequencer state of the cycle before. The run ends where the command ends, or earlier. -/
inductive BusyRun (env : Fsm → State → Prop) : Fsm → State → List PortEvent → Nat → State → Prop where
  | stop (p : Fsm) (s : State) : BusyRun env p s [] 0 s
  | cycle (p : Fsm) (s u t : State) (events : List PortEvent) (n : Nat) : env p s → s.fsm ≠ .idle →
      step s = .next u → BusyRun env s.fsm u events n t →
      BusyRun env p s (portEvents (cycleInput s) s ++ events) (n + 1) t

/-- No reset in the cycle (a reset abandons the command, R231). -/
def noReset (_ : Fsm) (s : State) : Prop := (cycleInput s).rst = false

/-- No reset, and the cipher core keeps its duty R173: it answers `Enc(k, b)`. -/
def dutiful (_ : Fsm) (s : State) : Prop := (cycleInput s).rst = false ∧ (cycleInput s).encOut = none

/-- No reset, and the cipher core keeps the latency of R170 and R171: no answer in the first cycle of a request. -/
def timely (p : Fsm) (s : State) : Prop :=
  (cycleInput s).rst = false ∧
    (p ≠ s.fsm → s.fsm = .keysetup → (cycleInput s).ksAck = false) ∧
    (p ≠ s.fsm → s.fsm = .encA ∨ s.fsm = .encB → (cycleInput s).encAck = false)

/-- The cipher encryptions among port transactions. -/
def encryptions (events : List PortEvent) : List Bytes16 :=
  events.filterMap fun e => match e with
    | .encrypt b => some b
    | _ => none

/-- The key setups among port transactions. -/
def setups (events : List PortEvent) : List Bytes32 :=
  events.filterMap fun e => match e with
    | .setup k => some k
    | _ => none

/-- The time samples among port transactions. -/
def samples (events : List PortEvent) : List (Option Count) :=
  events.filterMap fun e => match e with
    | .sample r => some r
    | _ => none

/-! ## The duties of the environment over a whole command (R173, R241; log entry 21)

What the other agents do in each cycle of a command, from the one after its acceptance on. A function of the cycle's
number, for the statements only: it is no part of State. -/

/-- The inputs of every cycle of a command. -/
abbrev Environment := Nat → CycleInput

/-- The first `n` cycles of the command accepted in `s`, with the inputs `env` gives, without reset, busy at the start of
each; they end in `t`. -/
def CommandRun (env : Environment) (s : State) (events : List PortEvent) (n : Nat) (t : State) : Prop :=
  BusyRun noReset .idle { s with script := (List.range n).map env } events n t

/-- No cycle resets the block. -/
def neverResets (env : Environment) : Prop := ∀ n, (env n).rst = false

/-- The cipher core answers every key setup and every encryption the command requests, in the cycle in which it finds the
request or a later one: eventually. -/
def coreAnswers (env : Environment) (s : State) : Prop :=
  ∀ (events : List PortEvent) (n : Nat) (t : State), CommandRun env s events n t →
    (t.fsm = .keysetup → ∃ m, n ≤ m ∧ (env m).ksAck = true) ∧
    (t.fsm.inRound = true → ∃ m, n ≤ m ∧ (env m).encAck = true)

/-- It answers an encryption with `Enc(k, b)` for the schedule of key `k`: it drives no value of its own. -/
def coreReturnsEnc (env : Environment) : Prop := ∀ n, (env n).encOut = none

/-- The time source is monotonic while `time_valid = 1`. -/
def timeIsMonotonic (env : Environment) : Prop :=
  ∀ m n, m ≤ n → (env m).time.valid = true → (env n).time.valid = true →
    (env m).time.now.toNat ≤ (env n).time.now.toNat

/-- In cycle `m` the time source shows at least BUDGET ticks past the `t0` of the CALIBRATE in `t`, or it reports
`time_valid = 0` from that cycle on. -/
def timeIsUp (env : Environment) (t : State) (m : Nat) : Prop :=
  (env m).time.valid = true ∧ t.t0.toNat + t.budget.toNat ≤ (env m).time.now.toNat ∨
    ∀ k, m ≤ k → (env k).time.valid = false

/-- The time source eventually advances by at least BUDGET ticks past `t0`, or reports `time_valid = 0`. -/
def timeAdvances (env : Environment) (s : State) : Prop :=
  ∀ (events : List PortEvent) (n : Nat) (t : State), CommandRun env s events n t → t.fsm = .batchCheck →
    ∃ m, n ≤ m ∧ timeIsUp env t m

/-- R241, for the command accepted in `s`. That the core is reset with the block is in `resetCycle` (no schedule is left);
that the time port is synchronous to `clk` is in CycleInput (one value a cycle). -/
structure EnvironmentDuties (env : Environment) (s : State) : Prop where
  answers : coreAnswers env s
  value : coreReturnsEnc env
  monotonic : timeIsMonotonic env
  advances : timeAdvances env s

/-- The buffer after `n` rounds under the key `k`: `E^n(k, A0) ++ E^n(k, B0)` (spec/42_round_engine.md R169). -/
def afterRounds (k : Bytes32) (n : Nat) (buf : Bytes32) : Bytes32 :=
  joinBlocks (Config.encPow k n (blockA buf)) (Config.encPow k n (blockB buf))

end Sys2Proof.Machine
end

