-- ==== Sys2Proof/Certificates/Slice0/Obligations.lean ====
section
/-! DEFINITION. The statements about the block for the provers. Each cites the rules of spec/ it rests on. -/

open Sys2Proof Sys2Proof.Machine

/-! ## Encoding (spec/30_encoding.md) -/

/-- Every well-formed instruction is read back from its own access word, with every operand (R70 to R73). -/
def Obligations.DecodeOfEncode : Prop :=
  ∀ i : Instr, i.wellFormed = true → decode (encode i) = i

/-- Every access word is the encoding of the instruction it decodes to; a read's data bits are not driven and are 0
(R70, R76). -/
def Obligations.EncodeOfDecode : Prop :=
  ∀ w : AccessWord, (w.we = 0#1 → w.data = 0#32) → encode (decode w) = w

/-- The decoder is total and selects the one row of the table that covers the word (R72, R73, R76). -/
def Obligations.DecodeSelectsTheOneRow : Prop :=
  ∀ w : AccessWord, (decode w).wellFormed = true ∧ (decode w).row.covers w = true ∧
    ∀ i : Instr, i.row.covers w = true → i.row = (decode w).row

/-- `off[1:0]`, the data of a read and `data[31:4]` of a command write have no effect (R52, R71, R72, R74). -/
def Obligations.IgnoredBitsHaveNoEffect : Prop :=
  ∀ (w w' : AccessWord) (s : State), w.we = w'.we → w.word = w'.word →
    (w.we = 1#1 → w.word = 0#6 → w.data.extractLsb' 0 4 = w'.data.extractLsb' 0 4) →
    (w.we = 1#1 → w.word ≠ 0#6 → w.data = w'.data) →
    exec (decode w) s = exec (decode w') s

/-- A few access words written out from R70 to R73 and the instructions they stand for, and the least number that is no
access word (the model's rejection by name, log entry 16). -/
def Obligations.WrittenOutWordsDecode : Prop :=
  decode 0x100FFFFFFF1#41 = .cmdTransform 0xFFFFFFF#28 0#2 ∧
  decode 0x10000000009#41 = .cmdReserved8F 9#4 0#28 0#2 ∧
  decode 0x00400000000#41 = .rdStatus 0#2 ∧
  decode 0x11400000001#41 = .wrRoundsHi 1#32 0#2 ∧
  decode 0x15444332211#41 = .wrBuf 5#3 0x44332211#32 0#2 ∧
  decode 0x06C00000000#41 = .rdSeed 3#3 0#2 ∧
  decode 0x143AABBCCDD#41 = .wrBuf 0#3 0xAABBCCDD#32 3#2 ∧
  decode 0x1FC00000001#41 = .wrReserved80FC 0xFC#8 1#32 ∧
  decodeNumber (2 ^ 41) = .error .widerThanAccessWord

/-! ## Reads (spec/40_host_access.md) -/

/-- CMD, the seed words and the reserved offsets read 0 in every state (R103, R119, R121). -/
def Obligations.ConstantRegistersReadZero : Prop :=
  ∀ (s : State) (lane : BitVec 2) (k : BitVec 3) (off : BitVec 8),
    exec (.rdCmd lane) s = .next { s with busRead := some 0#32 } ∧
    exec (.rdSeed k lane) s = .next { s with busRead := some 0#32 } ∧
    exec (.rdReserved0C lane) s = .next { s with busRead := some 0#32 } ∧
    exec (.rdReserved282C off) s = .next { s with busRead := some 0#32 } ∧
    exec (.rdReserved303C off) s = .next { s with busRead := some 0#32 } ∧
    exec (.rdReserved80FC off) s = .next { s with busRead := some 0#32 }

/-- A read of STATUS returns the fields at their places, and changes nothing; while busy SEED_WMASK reads 0xFF in every
state that meets the invariant (R27, R28, R46, R105, R201). -/
def Obligations.StatusReadReturnsItsFields : Prop :=
  ∀ (s : State) (lane : BitVec 2), ∃ v : Word, exec (.rdStatus lane) s = .next { s with busRead := some v } ∧
    v.getLsbD 0 = decide (s.fsm ≠ .idle) ∧
    v.getLsbD 1 = s.done ∧
    v.extractLsb' 2 3 = (match s.err with
      | .none => 0#3
      | .invalidArgument => 1#3
      | .clockUnavailable => 2#3
      | .illegalCommand => 3#3) ∧
    v.getLsbD 5 = s.sat ∧
    v.getLsbD 6 = s.wrIgnored ∧
    v.getLsbD 7 = false ∧
    v.extractLsb' 8 8 = s.bufWmask ∧
    v.extractLsb' 16 8 = s.seedWmask ∧
    v.extractLsb' 24 8 = 0#8 ∧
    (BlockInv s → s.fsm ≠ .idle → v.extractLsb' 16 8 = 0xFF#8)

/-- IRQ_EN and the two words of ROUNDS, BUDGET and RESULT read their values in every state (R107, R109, R112, R115). -/
def Obligations.OperandRegistersReadTheirValues : Prop :=
  ∀ (s : State) (lane : BitVec 2),
    (∃ v : Word, exec (.rdIrqEn lane) s = .next { s with busRead := some v } ∧ v.toNat = if s.ie then 1 else 0) ∧
    (∃ v : Word, exec (.rdRoundsLo lane) s = .next { s with busRead := some v } ∧ v.toNat = s.rounds.toNat % 2 ^ 32) ∧
    (∃ v : Word, exec (.rdRoundsHi lane) s = .next { s with busRead := some v } ∧ v.toNat = s.rounds.toNat / 2 ^ 32) ∧
    (∃ v : Word, exec (.rdBudgetLo lane) s = .next { s with busRead := some v } ∧ v.toNat = s.budget.toNat % 2 ^ 32) ∧
    (∃ v : Word, exec (.rdBudgetHi lane) s = .next { s with busRead := some v } ∧ v.toNat = s.budget.toNat / 2 ^ 32) ∧
    (∃ v : Word, exec (.rdResultLo lane) s = .next { s with busRead := some v } ∧ v.toNat = s.result.toNat % 2 ^ 32) ∧
    (∃ v : Word, exec (.rdResultHi lane) s = .next { s with busRead := some v } ∧ v.toNat = s.result.toNat / 2 ^ 32)

/-- A buffer word reads 0 while busy, and its four bytes, low byte first, while idle (R53, R117). -/
def Obligations.BufferReadReturnsItsBytes : Prop :=
  ∀ (s : State) (k : BitVec 3) (lane : BitVec 2),
    (s.fsm ≠ .idle → exec (.rdBuf k lane) s = .next { s with busRead := some 0#32 }) ∧
    (s.fsm = .idle → ∃ v : Word, exec (.rdBuf k lane) s = .next { s with busRead := some v } ∧
      ∀ j, j < 4 → byteAt v j = byteAt s.buf (4 * k.toNat + j))

/-- Every read access, in every state, returns a word and has no side effect (R59, R100). -/
def Obligations.ReadsHaveNoSideEffects : Prop :=
  ∀ (w : AccessWord) (s : State), w.we = 0#1 → ∃ v : Word, exec (decode w) s = .next { s with busRead := some v }

/-! ## Writes (spec/40_host_access.md) -/

/-- Every write access to a busy block, whatever its offset, sets WR_IGNORED and changes nothing else (R102, R207). -/
def Obligations.BusyWritesAreDropped : Prop :=
  ∀ (w : AccessWord) (s : State), w.we = 1#1 → s.fsm ≠ .idle → exec (decode w) s = .next { s with wrIgnored := true }

/-- A write while busy leaves the running command as it would have run without the write, in the command's last cycle too
(R61, R102). -/
def Obligations.BusyWriteLeavesTheCommandRunning : Prop :=
  ∀ (s : State) (inp : CycleInput) (rest : List CycleInput) (w : AccessWord), s.script = inp :: rest →
    inp.rst = false → inp.access = some w → w.we = 1#1 → s.fsm ≠ .idle →
    ∃ t, step { s with script := { inp with access := none } :: rest } = .next t ∧
      step s = .next { t with wrIgnored := true }

/-- A write to STATUS, to RESULT or to a reserved offset changes nothing while idle, and sets WR_IGNORED alone while busy
(R106, R116, R122). -/
def Obligations.ReadOnlyAndReservedWritesDoNothing : Prop :=
  ∀ (s : State) (data : Word) (lane : BitVec 2) (off : BitVec 8) (i : Instr),
    i = .wrStatus data lane ∨ i = .wrResultLo data lane ∨ i = .wrResultHi data lane ∨ i = .wrReserved0C data lane ∨
      i = .wrReserved282C off data ∨ i = .wrReserved303C off data ∨ i = .wrReserved80FC off data →
    (s.fsm = .idle → exec i s = .next s) ∧ (s.fsm ≠ .idle → exec i s = .next { s with wrIgnored := true })

/-- While idle, a write to IRQ_EN stores bit 0 of the data in IE; a write to one word of ROUNDS or BUDGET stores that half
and leaves the other half unchanged; every other piece of state stays. While busy each of them sets WR_IGNORED alone (R55,
R108, R110, R111, R113, R114). -/
def Obligations.OperandWritesStoreTheirData : Prop :=
  ∀ (s : State) (data : Word) (lane : BitVec 2),
    (s.fsm ≠ .idle → ∀ i : Instr, i = .wrIrqEn data lane ∨ i = .wrRoundsLo data lane ∨ i = .wrRoundsHi data lane ∨
      i = .wrBudgetLo data lane ∨ i = .wrBudgetHi data lane → exec i s = .next { s with wrIgnored := true }) ∧
    (s.fsm = .idle →
    exec (.wrIrqEn data lane) s = .next { s with ie := decide (data.toNat % 2 = 1) } ∧
    (∃ r : Count, exec (.wrRoundsLo data lane) s = .next { s with rounds := r } ∧
      r.toNat = s.rounds.toNat / 2 ^ 32 * 2 ^ 32 + data.toNat) ∧
    (∃ r : Count, exec (.wrRoundsHi data lane) s = .next { s with rounds := r } ∧
      r.toNat = data.toNat * 2 ^ 32 + s.rounds.toNat % 2 ^ 32) ∧
    (∃ r : Count, exec (.wrBudgetLo data lane) s = .next { s with budget := r } ∧
      r.toNat = s.budget.toNat / 2 ^ 32 * 2 ^ 32 + data.toNat) ∧
    (∃ r : Count, exec (.wrBudgetHi data lane) s = .next { s with budget := r } ∧
      r.toNat = data.toNat * 2 ^ 32 + s.budget.toNat % 2 ^ 32))

/-- While idle, a write to BUFk stores the data's four bytes at BUF[4k..4k+3], low byte first, sets bit k of BUF_WMASK, and
leaves every other byte, mask bit and piece of state unchanged; a write to SEEDk does the same with SEED and SEED_WMASK.
While busy each of them sets WR_IGNORED alone (R53, R54, R118, R120). -/
def Obligations.BufferAndSeedWritesStoreTheirBytes : Prop :=
  ∀ (s : State) (k : BitVec 3) (data : Word) (lane : BitVec 2),
    (s.fsm ≠ .idle → exec (.wrBuf k data lane) s = .next { s with wrIgnored := true } ∧
      exec (.wrSeed k data lane) s = .next { s with wrIgnored := true }) ∧
    (s.fsm = .idle →
    (∃ (b : Bytes32) (m : BitVec 8), exec (.wrBuf k data lane) s = .next { s with buf := b, bufWmask := m } ∧
      (∀ i, i < 32 → byteAt b i = if i / 4 = k.toNat then byteAt data (i % 4) else byteAt s.buf i) ∧
      (∀ j, j < 8 → m.getLsbD j = (decide (j = k.toNat) || s.bufWmask.getLsbD j))) ∧
    (∃ (b : Bytes32) (m : BitVec 8), exec (.wrSeed k data lane) s = .next { s with seed := b, seedWmask := m } ∧
      (∀ i, i < 32 → byteAt b i = if i / 4 = k.toNat then byteAt data (i % 4) else byteAt s.seed i) ∧
      (∀ j, j < 8 → m.getLsbD j = (decide (j = k.toNat) || s.seedWmask.getLsbD j))))

/-! ## Commands (spec/41_commands.md) -/

/-- ACK while idle clears the four sticky flags and nothing else (R130, R131). -/
def Obligations.AckClearsTheStickyFlags : Prop :=
  ∀ (s : State) (ignored : BitVec 28) (lane : BitVec 2), s.fsm = .idle →
    exec (.cmdAck ignored lane) s =
      .next { s with done := false, err := .none, sat := false, wrIgnored := false }

/-- TRANSFORM while idle: with every word of the buffer and of the seed written it is accepted, whatever ROUNDS is; else it
is rejected with INVALID_ARGUMENT and changes only STATUS (R130, R132, R138). -/
def Obligations.TransformIsAcceptedOrRejected : Prop :=
  ∀ (s : State) (ignored : BitVec 28) (lane : BitVec 2), s.fsm = .idle →
    (s.bufWmask = 0xFF#8 → s.seedWmask = 0xFF#8 → exec (.cmdTransform ignored lane) s =
      .next { s with done := false, err := .none, sat := false, wrIgnored := false,
                     op := .transform, rc := 0#64, fsm := .keysetup }) ∧
    (s.bufWmask ≠ 0xFF#8 ∨ s.seedWmask ≠ 0xFF#8 → exec (.cmdTransform ignored lane) s =
      .next { s with done := false, err := .invalidArgument, sat := false, wrIgnored := false })

/-- CALIBRATE while idle: accepted or rejected likewise, whatever BUDGET is (R130, R134, R138). -/
def Obligations.CalibrateIsAcceptedOrRejected : Prop :=
  ∀ (s : State) (ignored : BitVec 28) (lane : BitVec 2), s.fsm = .idle →
    (s.bufWmask = 0xFF#8 → s.seedWmask = 0xFF#8 → exec (.cmdCalibrate ignored lane) s =
      .next { s with done := false, err := .none, sat := false, wrIgnored := false,
                     op := .calibrate, acc := 0#64, bc := 0#4, fsm := .keysetup }) ∧
    (s.bufWmask ≠ 0xFF#8 ∨ s.seedWmask ≠ 0xFF#8 → exec (.cmdCalibrate ignored lane) s =
      .next { s with done := false, err := .invalidArgument, sat := false, wrIgnored := false })

/-- CLEAR while idle zeroes BUF, SEED, the masks, ROUNDS, BUDGET, RESULT and the flags; IRQ_EN stays; with no schedule in
the core, which R46 says of every reachable idle state, the state after it is the reset state but for IRQ_EN (R130, R136).
That `op`, `rc`, `bc`, `acc` and `t0`, which the pseudo-code of R136 does not list, take their reset values too is the
model's reading of R136's corner-case sentence (log entry 19); the fields `busRead`, `script` and `cycle` are the model's
own (log entries 3, 4, 5). -/
def Obligations.ClearZeroesTheData : Prop :=
  ∀ (s : State) (ignored : BitVec 28) (lane : BitVec 2), s.fsm = .idle →
    ∃ t, exec (.cmdClear ignored lane) s = .next t ∧
      (∀ i, i < 32 → byteAt t.buf i = 0#8 ∧ byteAt t.seed i = 0#8) ∧
      t = { s with buf := t.buf, seed := t.seed, bufWmask := 0#8, seedWmask := 0#8, rounds := 0#64, budget := 0#64,
                   result := 0#64, done := false, err := .none, sat := false, wrIgnored := false,
                   op := .transform, rc := 0#64, bc := 0#4, acc := 0#64, t0 := 0#64 } ∧
      (s.sched = none →
        t = { State.reset with ie := s.ie, busRead := s.busRead, script := s.script, cycle := s.cycle })

/-- A reserved command code while idle records ILLEGAL_COMMAND and changes no data register (R130, R137, R206). -/
def Obligations.ReservedCodesAreIllegal : Prop :=
  ∀ (s : State) (code : BitVec 4) (ignored : BitVec 28) (lane : BitVec 2), s.fsm = .idle →
    exec (.cmdReserved47 code ignored lane) s =
      .next { s with done := false, err := .illegalCommand, sat := false, wrIgnored := false } ∧
    exec (.cmdReserved8F code ignored lane) s =
      .next { s with done := false, err := .illegalCommand, sat := false, wrIgnored := false }

/-- After a command write to an idle block only that command's outcome is in STATUS, by the priority of R208: a reserved
code before missing arguments before acceptance (R130, R208). -/
def Obligations.CommandWritePriority : Prop :=
  ∀ (w : AccessWord) (s : State), w.we = 1#1 → w.word = 0#6 → s.fsm = .idle →
    ∃ t, exec (decode w) s = .next t ∧ t.done = false ∧ t.sat = false ∧ t.wrIgnored = false ∧
      (let code := w.data.toNat % 16
       let present := s.bufWmask = 0xFF#8 ∧ s.seedWmask = 0xFF#8
       (4 ≤ code → t.err = .illegalCommand ∧ t.fsm = .idle) ∧
       (code = 1 ∨ code = 2 → ¬ present → t.err = .invalidArgument ∧ t.fsm = .idle) ∧
       (code = 1 ∨ code = 2 → present → t.err = .none ∧ t.fsm = .keysetup) ∧
       (code = 0 ∨ code = 3 → t.err = .none ∧ t.fsm = .idle))

/-! ## A clock cycle (spec/20_memory.md R61; spec/70_reset_and_hazards.md) -/

/-- A step performs the access on the bus: it is exec of the decoded instruction on the state at the cycle's start (its
inputs taken, no read data yet), then the sequencer's step of the state the cycle began in, which keeps the read data and
WR_IGNORED as the access left them (R61, R72, R102). An idle block has no sequencer step (R150). One step for one clock
cycle, the cycle counter and the read data's field are the model's choices (log entries 2, 4, 5). -/
def Obligations.StepPerformsTheAccess : Prop :=
  ∀ (s : State) (inp : CycleInput) (rest : List CycleInput) (w : AccessWord), s.script = inp :: rest →
    inp.rst = false → inp.access = some w →
    ∃ t, exec (decode w) { s with script := rest, cycle := s.cycle + 1, busRead := none } = .next t ∧
      step s = .next (sequencerStep s.fsm inp t) ∧ (s.fsm = .idle → step s = .next t) ∧
      ∀ u, step s = .next u → u.busRead = t.busRead ∧ u.wrIgnored = t.wrIgnored

/-- An idle block with no access keeps every register, requests nothing of the cipher core and completes no port
transaction (R150, R219); that the cycle's read data are none is the model's own field (log entry 5). -/
def Obligations.IdleBlockKeepsItsState : Prop :=
  ∀ s : State, s.fsm = .idle → (cycleInput s).rst = false → (cycleInput s).access = none →
    portEvents (cycleInput s) s = [] ∧
    (ports (cycleInput s) s).setup = none ∧ (ports (cycleInput s) s).encrypt = none ∧
    ∃ t, step s = .next t ∧ t.engine = s.engine ∧ t.wrIgnored = s.wrIgnored ∧ t.busRead = none

/-- A cycle with `rst = 1`, whatever the block was doing and whatever is on the bus: every state at its R44 value,
WR_IGNORED too, a read answered with 0, no request, `sched_clear` and no interrupt (R208, R230, R231). That the inputs of
the later cycles stay listed is the model's choice (log entries 3, 13). -/
def Obligations.ResetCycleRestoresResetState : Prop :=
  ∀ (s : State) (inp : CycleInput) (rest : List CycleInput), s.script = inp :: rest → inp.rst = true →
    ports inp s = { setup := none, encrypt := none, schedClear := true, irq := false } ∧
    ∃ t, step s = .next t ∧ t.engine = State.reset.engine ∧ t.wrIgnored = false ∧ t.script = rest ∧
      (∀ w, inp.access = some w → w.we = 0#1 → t.busRead = some 0#32)

/-- The block never traps: every access completes, and every step has a next state (R76, R200). -/
def Obligations.NothingEverTraps : Prop :=
  (∀ (i : Instr) (s : State), ∃ t, exec i s = .next t) ∧ ∀ s : State, ∃ t, step s = .next t

/-! ## The sequencer, state by state (spec/42_round_engine.md). Each statement gives the whole next state but for what the
host's access of the same cycle may change: `engine` (spec/40_host_access.md R102; spec/20_memory.md R59). -/

/-- KEYSETUP waits for the core's answer; then the schedule is SEED's and the command goes on: TRANSFORM with zero rounds
to FINISH, TRANSFORM to ENC_A, CALIBRATE to T0 (R152, R153). -/
def Obligations.KeySetupStep : Prop :=
  ∀ s : State, s.fsm = .keysetup → (cycleInput s).rst = false → ∃ t, step s = .next t ∧
    ((cycleInput s).ksAck = false → t.engine = s.engine) ∧
    ((cycleInput s).ksAck = true → t.engine = State.engine { s with
      sched := some s.seed
      fsm := if s.op = .calibrate then .t0 else if s.rounds.toNat = 0 then .finish else .encA })

/-- T0 takes one time sample: the start time, or the way to FAIL (R157, R215). -/
def Obligations.StartTimeStep : Prop :=
  ∀ s : State, s.fsm = .t0 → (cycleInput s).rst = false → ∃ t, step s = .next t ∧
    ((cycleInput s).time.valid = false → t.engine = State.engine { s with fsm := .fail }) ∧
    ((cycleInput s).time.valid = true →
      t.engine = State.engine { s with t0 := (cycleInput s).time.now, fsm := .batchCheck })

/-- BATCH_CHECK: a batch of 8 that would carry the accumulator past 2^64-1 saturates, else a batch begins (R158, R164). -/
def Obligations.BatchCheckStep : Prop :=
  ∀ s : State, s.fsm = .batchCheck → (cycleInput s).rst = false → ∃ t, step s = .next t ∧
    (2 ^ 64 - 1 < s.acc.toNat + 8 → t.engine = State.engine { s with sat := true, fsm := .finish }) ∧
    (s.acc.toNat + 8 ≤ 2 ^ 64 - 1 → t.engine = State.engine { s with bc := 0#4, fsm := .encA })

/-- ENC_A waits for the core's answer `o` (the value it drives, or `Enc(k, A)` of a dutiful core); then the bytes 0 to 15
of BUF are those of `o` and the others stay (R154, R173). -/
def Obligations.EncryptBlockAStep : Prop :=
  ∀ (s : State) (o : Bytes16), s.fsm = .encA → (cycleInput s).rst = false →
    ((cycleInput s).encOut = some o ∨
      (cycleInput s).encOut = none ∧ ∃ k, s.sched = some k ∧ o = Config.enc k (blockA s.buf)) →
    ∃ t, step s = .next t ∧
      ((cycleInput s).encAck = false → t.engine = s.engine) ∧
      ((cycleInput s).encAck = true → ∃ b : Bytes32,
        t.engine = State.engine { s with buf := b, fsm := .encB } ∧
        (∀ i, i < 16 → byteAt b i = byteAt o i) ∧ (∀ i, 16 ≤ i → i < 32 → byteAt b i = byteAt s.buf i))

/-- ENC_B of TRANSFORM waits for the core's answer `o`; then the bytes 16 to 31 of BUF are those of `o`, `rc` is one more,
and the new `rc` is compared with ROUNDS (R155, R156, R173). -/
def Obligations.EncryptBlockBStepOfTransform : Prop :=
  ∀ (s : State) (o : Bytes16), s.fsm = .encB → s.op = .transform → (cycleInput s).rst = false →
    ((cycleInput s).encOut = some o ∨
      (cycleInput s).encOut = none ∧ ∃ k, s.sched = some k ∧ o = Config.enc k (blockB s.buf)) →
    ∃ t, step s = .next t ∧
      ((cycleInput s).encAck = false → t.engine = s.engine) ∧
      ((cycleInput s).encAck = true → ∃ b : Bytes32,
        t.engine = State.engine { s with
          buf := b
          rc := s.rc + 1#64
          fsm := if (s.rc.toNat + 1) % 2 ^ 64 = s.rounds.toNat then .finish else .encA } ∧
        (∀ i, i < 16 → byteAt b i = byteAt s.buf i) ∧ (∀ i, i < 16 → byteAt b (16 + i) = byteAt o i))

/-- ENC_B of CALIBRATE: likewise, `bc` is one more, and after the eighth round of the batch `acc` is 8 more and a time
sample follows (R155, R159, R173). -/
def Obligations.EncryptBlockBStepOfCalibrate : Prop :=
  ∀ (s : State) (o : Bytes16), s.fsm = .encB → s.op = .calibrate → (cycleInput s).rst = false →
    ((cycleInput s).encOut = some o ∨
      (cycleInput s).encOut = none ∧ ∃ k, s.sched = some k ∧ o = Config.enc k (blockB s.buf)) →
    ∃ t, step s = .next t ∧
      ((cycleInput s).encAck = false → t.engine = s.engine) ∧
      ((cycleInput s).encAck = true → ∃ b : Bytes32,
        (∀ i, i < 16 → byteAt b i = byteAt s.buf i) ∧ (∀ i, i < 16 → byteAt b (16 + i) = byteAt o i) ∧
        (s.bc.toNat = 7 → t.engine = State.engine { s with
          buf := b, bc := 8#4, acc := s.acc + 8#64, fsm := .sample }) ∧
        (s.bc.toNat ≠ 7 → t.engine = State.engine { s with buf := b, bc := s.bc + 1#4, fsm := .encA }))

/-- SAMPLE takes one time sample; the elapsed time `(t - t0) mod 2^64` reaches the budget or another batch follows
(R160, R161). -/
def Obligations.SampleStep : Prop :=
  ∀ s : State, s.fsm = .sample → (cycleInput s).rst = false → ∃ t, step s = .next t ∧
    ((cycleInput s).time.valid = false → t.engine = State.engine { s with fsm := .fail }) ∧
    ((cycleInput s).time.valid = true →
      (let elapsed := ((cycleInput s).time.now.toNat + 2 ^ 64 - s.t0.toNat) % 2 ^ 64
       (s.budget.toNat ≤ elapsed → t.engine = State.engine { s with fsm := .finish }) ∧
       (elapsed < s.budget.toNat → t.engine = State.engine { s with fsm := .batchCheck })))

/-- FINISH reports the count and sets DONE; FAIL records CLOCK_UNAVAILABLE; both wipe the seed and its mask, destroy the
schedule, go idle and change nothing else (R162, R163, R172, R203). -/
def Obligations.FinishAndFailSteps : Prop :=
  ∀ s : State, (cycleInput s).rst = false →
    (s.fsm = .finish → ∃ t, step s = .next t ∧ t.engine = State.engine { s with
      result := if s.op = .transform then s.rc else s.acc
      done := true, seed := 0#256, seedWmask := 0#8, sched := none, fsm := .idle }) ∧
    (s.fsm = .fail → ∃ t, step s = .next t ∧ t.engine = State.engine { s with
      err := .clockUnavailable, seed := 0#256, seedWmask := 0#8, sched := none, fsm := .idle })

/-- There is no timeout: as long as the core does not answer, the block stays as it is, for as many cycles as there are
inputs without an answer and without reset (R175). -/
def Obligations.UnansweredRequestsWaitForever : Prop :=
  ∀ (n : Nat) (s : State), n ≤ s.script.length →
    (s.fsm = .keysetup ∧ ∀ inp, inp ∈ s.script → inp.rst = false ∧ inp.ksAck = false) ∨
    ((s.fsm = .encA ∨ s.fsm = .encB) ∧ ∀ inp, inp ∈ s.script → inp.rst = false ∧ inp.encAck = false) →
    ∃ t, Host.Core.run core n s = .next t ∧ t.engine = s.engine

/-- An acknowledge in a cycle in which the block does not wait for that transaction changes nothing (R174). -/
def Obligations.UnrequestedAnswersAreIgnored : Prop :=
  ∀ (s : State) (inp : CycleInput) (rest : List CycleInput) (ack : Bool) (out : Option Bytes16),
    s.script = inp :: rest →
    (s.fsm ≠ .keysetup → step { s with script := { inp with ksAck := ack } :: rest } = step s) ∧
    (s.fsm ≠ .encA → s.fsm ≠ .encB → step { s with script := { inp with encAck := ack, encOut := out } :: rest } = step s)

/-! ## Ports and interrupt -/

/-- The cipher port without reset: key setup with SEED is requested in KEYSETUP, an encryption of block A in ENC_A and of
block B in ENC_B, byte for byte; at most one request stands; `sched_clear` pulses in FINISH and FAIL (R56, R151, R154,
R155, R170 to R172). -/
def Obligations.PortRequestsFollowTheSequencer : Prop :=
  ∀ (inp : CycleInput) (s : State), inp.rst = false →
    ((ports inp s).setup ≠ none ↔ s.fsm = .keysetup) ∧
    (∀ key, (ports inp s).setup = some key → ∀ i, i < 32 → byteAt key i = byteAt s.seed i) ∧
    ((ports inp s).encrypt ≠ none ↔ s.fsm = .encA ∨ s.fsm = .encB) ∧
    (∀ b, s.fsm = .encA → (ports inp s).encrypt = some b → ∀ i, i < 16 → byteAt b i = byteAt s.buf i) ∧
    (∀ b, s.fsm = .encB → (ports inp s).encrypt = some b → ∀ i, i < 16 → byteAt b i = byteAt s.buf (16 + i)) ∧
    ((ports inp s).setup = none ∨ (ports inp s).encrypt = none) ∧
    ((ports inp s).schedClear = true ↔ s.fsm = .finish ∨ s.fsm = .fail)

/-- A request is held unchanged until its answer (R170, R171). -/
def Obligations.RequestsAreHeldUntilAnswered : Prop :=
  ∀ (s t : State) (inp : CycleInput), (cycleInput s).rst = false → inp.rst = false → step s = .next t →
    (s.fsm = .keysetup → (cycleInput s).ksAck = false → (ports inp t).setup = some s.seed) ∧
    (s.fsm = .keysetup → (cycleInput s).ksAck = true → (ports inp t).setup = none) ∧
    (s.fsm = .encA → (cycleInput s).encAck = false → (ports inp t).encrypt = some (blockA s.buf)) ∧
    (s.fsm = .encB → (cycleInput s).encAck = false → (ports inp t).encrypt = some (blockB s.buf))

/-- The interrupt is the level `IE and (DONE or ERR != 0)`, and low during reset; after a command write while idle it is high
exactly if IE is set and the command was rejected, by its code and the masks: a reserved code, or TRANSFORM or CALIBRATE
with a word of the buffer or the seed unwritten (so ACK, CLEAR and an accepted command lower it); IE written 1 raises it if
DONE or an error stands; IE written 0 or a reset lowers it (R108, R130, R210, R211, R230). -/
def Obligations.InterruptLevelAndHowItFalls : Prop :=
  (∀ (inp : CycleInput) (s : State),
    (ports inp s).irq = true ↔ inp.rst = false ∧ s.ie = true ∧ (s.done = true ∨ s.err ≠ .none)) ∧
  (∀ s : State, s.fsm = .idle →
    (∀ w : AccessWord, w.we = 1#1 → w.word = 0#6 →
      ∃ t, exec (decode w) s = .next t ∧
        (let code := w.data.toNat % 16
         t.irq = true ↔ s.ie = true ∧
           (4 ≤ code ∨ (code = 1 ∨ code = 2) ∧ (s.bufWmask ≠ 0xFF#8 ∨ s.seedWmask ≠ 0xFF#8)))) ∧
    (∀ (data : Word) (lane : BitVec 2),
      ∃ t, exec (.wrIrqEn data lane) s = .next t ∧
        (t.irq = true ↔ data.toNat % 2 = 1 ∧ (s.done = true ∨ s.err ≠ .none)))) ∧
  (∀ s t : State, (cycleInput s).rst = true → step s = .next t → t.irq = false)

/-! ## Reset and the invariant -/

/-- Every piece of state at its reset value (R44, R232); the block's own state only. -/
def Obligations.ResetValues : Prop :=
  (∀ i, i < 32 → byteAt State.reset.buf i = 0#8 ∧ byteAt State.reset.seed i = 0#8) ∧
  State.reset.bufWmask = 0#8 ∧ State.reset.seedWmask = 0#8 ∧
  State.reset.rounds = 0#64 ∧ State.reset.budget = 0#64 ∧ State.reset.result = 0#64 ∧
  statusWord State.reset = 0#32 ∧ State.reset.irq = false ∧ State.reset.ie = false ∧
  State.reset.fsm = .idle ∧ State.reset.op = .transform ∧ State.reset.rc = 0#64 ∧ State.reset.bc = 0#4 ∧
  State.reset.acc = 0#64 ∧ State.reset.t0 = 0#64 ∧ State.reset.sched = none ∧
  ∀ inp : CycleInput, inp.rst = false →
    ports inp State.reset = { setup := none, encrypt := none, schedClear := false, irq := false }

/-- The invariant holds after reset (R44, R46). -/
def Obligations.ResetMeetsTheInvariant : Prop := BlockInv State.reset

/-- Every step keeps the invariant, whatever the host, the cipher core, the time source and the reset input do (R46). -/
def Obligations.StepKeepsTheInvariant : Prop :=
  ∀ s t : State, BlockInv s → step s = .next t → BlockInv t

/-! ## Rules of the whole machine -/

/-- While a command runs, its operands, IRQ_EN, the buffer's mask and the latched command do not change, WR_IGNORED is not
cleared and is set by a write access only, and every other register and the schedule change only in the sequencer states
whose rules write them (R20 to R26, R29, R30, R32, R35 to R41, R63, R102). -/
def Obligations.BusyStepFrame : Prop :=
  ∀ s t : State, s.fsm ≠ .idle → (cycleInput s).rst = false → step s = .next t →
    t.rounds = s.rounds ∧ t.budget = s.budget ∧ t.ie = s.ie ∧ t.bufWmask = s.bufWmask ∧ t.op = s.op ∧
    (s.fsm ≠ .encA → s.fsm ≠ .encB → t.buf = s.buf) ∧
    (s.fsm ≠ .finish → s.fsm ≠ .fail → t.seed = s.seed ∧ t.seedWmask = s.seedWmask) ∧
    (s.fsm ≠ .finish → t.result = s.result ∧ t.done = s.done) ∧
    (s.fsm ≠ .fail → t.err = s.err) ∧ (s.fsm ≠ .batchCheck → t.sat = s.sat) ∧
    (s.fsm ≠ .encB → t.rc = s.rc ∧ t.acc = s.acc) ∧ (s.fsm ≠ .batchCheck → s.fsm ≠ .encB → t.bc = s.bc) ∧
    (s.fsm ≠ .t0 → t.t0 = s.t0) ∧ (s.fsm ≠ .keysetup → s.fsm ≠ .finish → s.fsm ≠ .fail → t.sched = s.sched) ∧
    (s.wrIgnored = true → t.wrIgnored = true) ∧
    (t.wrIgnored = true → s.wrIgnored = true ∨ ∃ w, (cycleInput s).access = some w ∧ w.we = 1#1)

/-- Over all steps without reset: DONE is set only by FINISH, RESULT is written only by FINISH and CLEAR, a mask bit of the
buffer is cleared only by CLEAR, and the block becomes busy only by an accepted command (R22, R26, R28, R29). -/
def Obligations.OnlyTheirRulesWriteTheRegisters : Prop :=
  ∀ s t : State, (cycleInput s).rst = false → step s = .next t →
    (s.done = false → t.done = true → s.fsm = .finish) ∧
    (t.result ≠ s.result → s.fsm = .finish ∨
      s.fsm = .idle ∧ ∃ w ignored lane, (cycleInput s).access = some w ∧ decode w = .cmdClear ignored lane) ∧
    (∀ k, s.bufWmask.getLsbD k = true → t.bufWmask.getLsbD k = false →
      s.fsm = .idle ∧ ∃ w ignored lane, (cycleInput s).access = some w ∧ decode w = .cmdClear ignored lane) ∧
    (s.fsm = .idle → t.fsm ≠ .idle → s.bufWmask = 0xFF#8 ∧ s.seedWmask = 0xFF#8 ∧
      ∃ w ignored lane, (cycleInput s).access = some w ∧
        (decode w = .cmdTransform ignored lane ∨ decode w = .cmdCalibrate ignored lane))

/-- No read tells the seed: two states that differ in the seed and the core's schedule only answer every access with the
same data and the same interrupt (R119, R213). -/
def Obligations.NoReadTellsTheSeed : Prop :=
  ∀ (s t t' : State) (seed' : Bytes32) (sched' : Option Bytes32) (w : AccessWord),
    exec (decode w) s = .next t → exec (decode w) { s with seed := seed', sched := sched' } = .next t' →
    t'.busRead = t.busRead ∧ t'.irq = t.irq ∧ t'.buf = t.buf ∧ t'.fsm = t.fsm

/-! ## Runs of one command (spec/41_commands.md R133 to R142; spec/42_round_engine.md R166 to R178) -/

/-- While a command runs, all the host can see (the data of its reads, the interrupt, STATUS, RESULT, how long
the command takes) is independent of the buffer, the seed, the schedule and of what the cipher core answers: in the second
run each of them differs, the values `enc_out` that the core drives among them. No intermediate value shows (R65, R117,
R176, R213). -/
def Obligations.RunningCommandShowsNoKeyMaterial : Prop :=
  ∀ (env : Fsm → State → Prop) (p : Fsm) (s t : State) (events : List PortEvent) (n : Nat) (buf' seed' : Bytes32)
    (sched' : Option Bytes32) (script' : List CycleInput), BusyRun env p s events n t →
    script'.map (fun inp => { inp with encOut := none }) = s.script.map (fun inp => { inp with encOut := none }) →
    ∃ (t' : State) (events' : List PortEvent),
      BusyRun (fun _ _ => True) p { s with buf := buf', seed := seed', sched := sched', script := script' } events' n t' ∧
      t'.busRead = t.busRead ∧ t'.irq = t.irq ∧ t'.fsm = t.fsm ∧ t'.result = t.result ∧
      statusWord t' = statusWord t

/-- Whenever a command with a dutiful core is about to encrypt block A, the buffer is that of the rounds completed: `rc` of
TRANSFORM, `acc + bc` of CALIBRATE (R46, R169). -/
def Obligations.RunningBufferHoldsItsRounds : Prop :=
  ∀ (o : Op) (p : Fsm) (s t : State) (events : List PortEvent) (n : Nat), Accepted o s →
    BusyRun dutiful p s events n t → t.fsm = .encA →
    t.buf = afterRounds s.seed (if o = .transform then t.rc.toNat else t.acc.toNat + t.bc.toNat) s.buf

/-- The end of an accepted TRANSFORM with a dutiful core (R133, R166). -/
def Obligations.TransformEndState : Prop :=
  ∀ (p : Fsm) (s t : State) (events : List PortEvent) (n : Nat), Accepted .transform s →
    BusyRun dutiful p s events n t → t.fsm = .idle →
    t.buf = afterRounds s.seed s.rounds.toNat s.buf ∧ t.result = s.rounds ∧
    t.done = true ∧ t.err = .none ∧ t.sat = false ∧ t.seed = 0#256 ∧ t.seedWmask = 0#8 ∧ t.bufWmask = 0xFF#8 ∧
    t.rounds = s.rounds ∧ t.budget = s.budget ∧ t.ie = s.ie ∧ t.sched = none ∧ t.rc = s.rounds

/-- The port traffic of an accepted TRANSFORM with a dutiful core: one key setup, then for each round an encryption of
block A and one of block B, and no time sample (R166, R168, R205). -/
def Obligations.TransformPortTraffic : Prop :=
  ∀ (p : Fsm) (s t : State) (events : List PortEvent) (n : Nat), Accepted .transform s →
    BusyRun dutiful p s events n t → t.fsm = .idle →
    events = .setup s.seed :: (List.range s.rounds.toNat).flatMap fun i =>
      [.encrypt (Config.encPow s.seed i (blockA s.buf)), .encrypt (Config.encPow s.seed i (blockB s.buf))]

/-- Termination of TRANSFORM, whatever the core answers: at most 1 + 2N transactions complete, and once they have, the next
cycle ends the command; so with a core that answers each of them eventually, and no reset, the command ends (R178, R241). -/
def Obligations.TransformEndsAfterItsAnswers : Prop :=
  (∀ (p : Fsm) (s t : State) (events : List PortEvent) (n : Nat), Accepted .transform s →
    BusyRun noReset p s events n t →
    events.length ≤ 1 + 2 * s.rounds.toNat ∧
    (events.length = 1 + 2 * s.rounds.toNat → t.fsm ≠ .idle → (cycleInput t).rst = false →
      ∃ u, step t = .next u ∧ u.fsm = .idle ∧ u.done = true ∧ u.result = s.rounds)) ∧
  ∀ (env : Environment) (s : State), Accepted .transform s → neverResets env → coreAnswers env s →
    ∃ (events : List PortEvent) (n : Nat) (t : State), CommandRun env s events n t ∧ t.fsm = .idle ∧ t.done = true ∧
      t.result = s.rounds

/-- A TRANSFORM of N rounds keeps the block busy for at least 2 + 4N + 1 cycles when the core keeps its latency (R242). -/
def Obligations.TransformTakesItsCycles : Prop :=
  ∀ (s t : State) (events : List PortEvent) (n : Nat), Accepted .transform s →
    BusyRun timely .idle s events n t → t.fsm = .idle → 2 + 4 * s.rounds.toNat + 1 ≤ n

/-- A TRANSFORM with ROUNDS = 0 leaves the buffer unchanged, issues one key setup and no encryption (R140, R153). -/
def Obligations.ZeroRoundsIsIdentity : Prop :=
  ∀ (p : Fsm) (s t : State) (events : List PortEvent) (n : Nat), Accepted .transform s → s.rounds = 0#64 →
    BusyRun noReset p s events n t → t.fsm = .idle →
    t.buf = s.buf ∧ t.result = 0#64 ∧ t.done = true ∧ events = [.setup s.seed]

/-- Two TRANSFORMs with equal buffer, seed and count end with equal buffer and result, whatever the latencies, the time
port and the host's accesses (R139). -/
def Obligations.TransformIsDeterministic : Prop :=
  ∀ (p p' : Fsm) (s s' t t' : State) (events events' : List PortEvent) (n n' : Nat),
    Accepted .transform s → Accepted .transform s' → s.buf = s'.buf → s.seed = s'.seed → s.rounds = s'.rounds →
    BusyRun dutiful p s events n t → t.fsm = .idle → BusyRun dutiful p' s' events' n' t' → t'.fsm = .idle →
    t.buf = t'.buf ∧ t.result = t'.result

/-- TRANSFORM with count `a`, then with count `b` on the result and the same seed, leaves the buffer of one TRANSFORM with
count `a + b`, whenever the sum is a 64-bit count (R141). -/
def Obligations.TransformIsAdditive : Prop :=
  ∀ (p₁ p₂ p₃ : Fsm) (s₁ s₂ s₃ t₁ t₂ t₃ : State) (e₁ e₂ e₃ : List PortEvent) (n₁ n₂ n₃ : Nat),
    Accepted .transform s₁ → Accepted .transform s₂ → Accepted .transform s₃ →
    BusyRun dutiful p₁ s₁ e₁ n₁ t₁ → t₁.fsm = .idle →
    s₂.buf = t₁.buf → s₂.seed = s₁.seed → BusyRun dutiful p₂ s₂ e₂ n₂ t₂ → t₂.fsm = .idle →
    s₃.buf = s₁.buf → s₃.seed = s₁.seed → s₃.rounds.toNat = s₁.rounds.toNat + s₂.rounds.toNat →
    BusyRun dutiful p₃ s₃ e₃ n₃ t₃ → t₃.fsm = .idle →
    t₂.buf = t₃.buf

/-- The halves never interact: of two commands of one kind that ended, successful or not, with the same seed and the same
number of completed encryptions, each half of the final buffer depends on that half of the buffer at acceptance only (R142,
R169). -/
def Obligations.HalvesAreIndependent : Prop :=
  ∀ (o : Op) (p p' : Fsm) (s s' t t' : State) (events events' : List PortEvent) (n n' : Nat),
    Accepted o s → Accepted o s' → s.seed = s'.seed →
    BusyRun dutiful p s events n t → t.fsm = .idle → BusyRun dutiful p' s' events' n' t' → t'.fsm = .idle →
    (encryptions events).length = (encryptions events').length →
    (blockA s.buf = blockA s'.buf → blockA t.buf = blockA t'.buf) ∧
    (blockB s.buf = blockB s'.buf → blockB t.buf = blockB t'.buf)

/-- The end of an accepted CALIBRATE with a dutiful core: success after m >= 1 batches, or a clock failure after m >= 0
batches with RESULT as before; in both cases the command encrypted the 16 blocks of each of its m batches and no other, the
buffer is that of 8m rounds and the seed is wiped (R135, R209). -/
def Obligations.CalibrateEndState : Prop :=
  ∀ (p : Fsm) (s t : State) (events : List PortEvent) (n : Nat), Accepted .calibrate s →
    BusyRun dutiful p s events n t → t.fsm = .idle →
    ∃ m : Nat, (encryptions events).length = 16 * m ∧ t.buf = afterRounds s.seed (8 * m) s.buf ∧
      t.seed = 0#256 ∧ t.seedWmask = 0#8 ∧ t.bufWmask = 0xFF#8 ∧ t.sched = none ∧
      (t.done = true ∧ t.err = .none ∧ 1 ≤ m ∧ t.result.toNat = 8 * m ∨
       t.done = false ∧ t.err = .clockUnavailable ∧ t.result = s.result ∧ t.sat = false)

/-- Where CALIBRATE stops, in terms of its time samples, `b` at T0 and one after each batch: at the first sample whose
elapsed time reaches the budget; or saturated, with no sample that reached it; or at the first sample that is unavailable.
The count is 8 for each sample after `b`; the command set up one schedule and encrypted 16 blocks for each batch, whatever
the core answered (R160, R164, R167, R177). -/
def Obligations.CalibrateStopsAtTheBudget : Prop :=
  ∀ (p : Fsm) (s t : State) (events : List PortEvent) (n : Nat), Accepted .calibrate s →
    BusyRun noReset p s events n t → t.fsm = .idle →
    setups events = [s.seed] ∧
    ((t.done = true ∧ t.sat = false ∧ ∃ (b : Count) (early : List Count) (last : Count),
      samples events = (b :: early ++ [last]).map some ∧ t.result.toNat = 8 * (early.length + 1) ∧
      (encryptions events).length = 16 * (early.length + 1) ∧
      (∀ y, y ∈ early → y - b < s.budget) ∧ s.budget ≤ last - b) ∨
    (t.done = true ∧ t.sat = true ∧ ∃ (b : Count) (early : List Count),
      samples events = (b :: early).map some ∧ t.result.toNat = 8 * early.length ∧
      (encryptions events).length = 16 * early.length ∧
      2 ^ 64 - 1 < t.result.toNat + 8 ∧ ∀ y, y ∈ early → y - b < s.budget) ∨
    (t.done = false ∧ t.err = .clockUnavailable ∧ ∃ early : List Count,
      samples events = early.map some ++ [none] ∧ (encryptions events).length = 16 * early.length ∧
      ∀ b rest, early = b :: rest → ∀ y, y ∈ rest → y - b < s.budget))

/-- With BUDGET = 0 a successful CALIBRATE reports exactly one batch (R167). -/
def Obligations.ZeroBudgetRunsOneBatch : Prop :=
  ∀ (p : Fsm) (s t : State) (events : List PortEvent) (n : Nat), Accepted .calibrate s → s.budget = 0#64 →
    BusyRun noReset p s events n t → t.fsm = .idle → t.done = true →
    t.result = 8#64 ∧ t.sat = false ∧ (samples events).length = 2

/-- A CALIBRATE that reports m batches keeps the block busy for at least 2 + 1 + m (1 + 4 * 8 + 1) + 1 cycles when the core
keeps its latency (R242). -/
def Obligations.CalibrateTakesItsCycles : Prop :=
  ∀ (s t : State) (events : List PortEvent) (n m : Nat), Accepted .calibrate s →
    BusyRun timely .idle s events n t → t.fsm = .idle → t.done = true → t.result.toNat = 8 * m →
    2 + 1 + m * (1 + 4 * 8 + 1) + 1 ≤ n

/-- CALIBRATE runs at most floor((2^64-1)/8) batches, whatever the clock shows. So with a core that answers eventually, and
no reset, the command ends, with a count or with the clock error, and with a count if the clock is always available. When
the time source keeps its duties as well, the saturated count is not waited for: there is a first cycle in which the clock
shows BUDGET past t0 (or from which it is unavailable), and the count the command reports is at most one batch above what
was accumulated in that cycle (R178, R241). -/
def Obligations.CalibrateBatchesAreBounded : Prop :=
  (∀ (p : Fsm) (s t : State) (events : List PortEvent) (n : Nat), Accepted .calibrate s →
    BusyRun noReset p s events n t → (encryptions events).length ≤ 16 * ((2 ^ 64 - 1) / 8)) ∧
  ∀ (env : Environment) (s : State), Accepted .calibrate s → neverResets env → coreAnswers env s →
    ∃ (events : List PortEvent) (n : Nat) (t : State), CommandRun env s events n t ∧ t.fsm = .idle ∧
      (t.done = true ∧ t.err = .none ∨ t.done = false ∧ t.err = .clockUnavailable) ∧
      ((∀ m, (env m).time.valid = true) → t.done = true) ∧
      (EnvironmentDuties env s → ∀ (before : List PortEvent) (n₀ : Nat) (u : State), CommandRun env s before n₀ u →
        u.fsm = .batchCheck →
        ∃ m, n₀ ≤ m ∧ timeIsUp env u m ∧ (∀ k, n₀ ≤ k → k < m → ¬ timeIsUp env u k) ∧
          ∀ (till : List PortEvent) (v : State), CommandRun env s till m v → t.done = true →
            t.result.toNat ≤ v.acc.toNat + 8)

/-- In every cycle from a command's acceptance to the cycle after its end, a read of STATUS returns BUSY, DONE or an error
(R62, R240). -/
def Obligations.StatusShowsTheCommand : Prop :=
  ∀ (o : Op) (p : Fsm) (s t : State) (events : List PortEvent) (n : Nat), Accepted o s →
    BusyRun noReset p s events n t →
    ∃ v : Word, exec (.rdStatus 0#2) t = .next { t with busRead := some v } ∧
      (v.getLsbD 0 = true ∨ v.getLsbD 1 = true ∨ v.extractLsb' 2 3 ≠ 0#3)
end

