-- ==== Sys2Proof/Laws/State.lean ====
section
/-! SUPPORT. One lemma per field per state update, so that no proof unfolds a record update. -/

namespace Sys2Proof.Machine

/-! ## busReturn -/

@[simp] theorem busReturn_buf (v : Word) (s : State) : (busReturn v s).buf = s.buf := rfl
@[simp] theorem busReturn_seed (v : Word) (s : State) : (busReturn v s).seed = s.seed := rfl
@[simp] theorem busReturn_bufWmask (v : Word) (s : State) : (busReturn v s).bufWmask = s.bufWmask := rfl
@[simp] theorem busReturn_seedWmask (v : Word) (s : State) : (busReturn v s).seedWmask = s.seedWmask := rfl
@[simp] theorem busReturn_rounds (v : Word) (s : State) : (busReturn v s).rounds = s.rounds := rfl
@[simp] theorem busReturn_budget (v : Word) (s : State) : (busReturn v s).budget = s.budget := rfl
@[simp] theorem busReturn_result (v : Word) (s : State) : (busReturn v s).result = s.result := rfl
@[simp] theorem busReturn_done (v : Word) (s : State) : (busReturn v s).done = s.done := rfl
@[simp] theorem busReturn_err (v : Word) (s : State) : (busReturn v s).err = s.err := rfl
@[simp] theorem busReturn_sat (v : Word) (s : State) : (busReturn v s).sat = s.sat := rfl
@[simp] theorem busReturn_wrIgnored (v : Word) (s : State) : (busReturn v s).wrIgnored = s.wrIgnored := rfl
@[simp] theorem busReturn_ie (v : Word) (s : State) : (busReturn v s).ie = s.ie := rfl
@[simp] theorem busReturn_fsm (v : Word) (s : State) : (busReturn v s).fsm = s.fsm := rfl
@[simp] theorem busReturn_op (v : Word) (s : State) : (busReturn v s).op = s.op := rfl
@[simp] theorem busReturn_rc (v : Word) (s : State) : (busReturn v s).rc = s.rc := rfl
@[simp] theorem busReturn_bc (v : Word) (s : State) : (busReturn v s).bc = s.bc := rfl
@[simp] theorem busReturn_acc (v : Word) (s : State) : (busReturn v s).acc = s.acc := rfl
@[simp] theorem busReturn_t0 (v : Word) (s : State) : (busReturn v s).t0 = s.t0 := rfl
@[simp] theorem busReturn_sched (v : Word) (s : State) : (busReturn v s).sched = s.sched := rfl
@[simp] theorem busReturn_busRead (v : Word) (s : State) : (busReturn v s).busRead = some v := rfl
@[simp] theorem busReturn_script (v : Word) (s : State) : (busReturn v s).script = s.script := rfl
@[simp] theorem busReturn_cycle (v : Word) (s : State) : (busReturn v s).cycle = s.cycle := rfl

/-! ## dropWrite -/

@[simp] theorem dropWrite_buf (s : State) : (dropWrite s).buf = s.buf := rfl
@[simp] theorem dropWrite_seed (s : State) : (dropWrite s).seed = s.seed := rfl
@[simp] theorem dropWrite_bufWmask (s : State) : (dropWrite s).bufWmask = s.bufWmask := rfl
@[simp] theorem dropWrite_seedWmask (s : State) : (dropWrite s).seedWmask = s.seedWmask := rfl
@[simp] theorem dropWrite_rounds (s : State) : (dropWrite s).rounds = s.rounds := rfl
@[simp] theorem dropWrite_budget (s : State) : (dropWrite s).budget = s.budget := rfl
@[simp] theorem dropWrite_result (s : State) : (dropWrite s).result = s.result := rfl
@[simp] theorem dropWrite_done (s : State) : (dropWrite s).done = s.done := rfl
@[simp] theorem dropWrite_err (s : State) : (dropWrite s).err = s.err := rfl
@[simp] theorem dropWrite_sat (s : State) : (dropWrite s).sat = s.sat := rfl
@[simp] theorem dropWrite_wrIgnored (s : State) : (dropWrite s).wrIgnored = true := rfl
@[simp] theorem dropWrite_ie (s : State) : (dropWrite s).ie = s.ie := rfl
@[simp] theorem dropWrite_fsm (s : State) : (dropWrite s).fsm = s.fsm := rfl
@[simp] theorem dropWrite_op (s : State) : (dropWrite s).op = s.op := rfl
@[simp] theorem dropWrite_rc (s : State) : (dropWrite s).rc = s.rc := rfl
@[simp] theorem dropWrite_bc (s : State) : (dropWrite s).bc = s.bc := rfl
@[simp] theorem dropWrite_acc (s : State) : (dropWrite s).acc = s.acc := rfl
@[simp] theorem dropWrite_t0 (s : State) : (dropWrite s).t0 = s.t0 := rfl
@[simp] theorem dropWrite_sched (s : State) : (dropWrite s).sched = s.sched := rfl
@[simp] theorem dropWrite_busRead (s : State) : (dropWrite s).busRead = s.busRead := rfl
@[simp] theorem dropWrite_script (s : State) : (dropWrite s).script = s.script := rfl
@[simp] theorem dropWrite_cycle (s : State) : (dropWrite s).cycle = s.cycle := rfl

/-! ## clearFlags -/

@[simp] theorem clearFlags_buf (s : State) : (clearFlags s).buf = s.buf := rfl
@[simp] theorem clearFlags_seed (s : State) : (clearFlags s).seed = s.seed := rfl
@[simp] theorem clearFlags_bufWmask (s : State) : (clearFlags s).bufWmask = s.bufWmask := rfl
@[simp] theorem clearFlags_seedWmask (s : State) : (clearFlags s).seedWmask = s.seedWmask := rfl
@[simp] theorem clearFlags_rounds (s : State) : (clearFlags s).rounds = s.rounds := rfl
@[simp] theorem clearFlags_budget (s : State) : (clearFlags s).budget = s.budget := rfl
@[simp] theorem clearFlags_result (s : State) : (clearFlags s).result = s.result := rfl
@[simp] theorem clearFlags_done (s : State) : (clearFlags s).done = false := rfl
@[simp] theorem clearFlags_err (s : State) : (clearFlags s).err = ErrCode.none := rfl
@[simp] theorem clearFlags_sat (s : State) : (clearFlags s).sat = false := rfl
@[simp] theorem clearFlags_wrIgnored (s : State) : (clearFlags s).wrIgnored = false := rfl
@[simp] theorem clearFlags_ie (s : State) : (clearFlags s).ie = s.ie := rfl
@[simp] theorem clearFlags_fsm (s : State) : (clearFlags s).fsm = s.fsm := rfl
@[simp] theorem clearFlags_op (s : State) : (clearFlags s).op = s.op := rfl
@[simp] theorem clearFlags_rc (s : State) : (clearFlags s).rc = s.rc := rfl
@[simp] theorem clearFlags_bc (s : State) : (clearFlags s).bc = s.bc := rfl
@[simp] theorem clearFlags_acc (s : State) : (clearFlags s).acc = s.acc := rfl
@[simp] theorem clearFlags_t0 (s : State) : (clearFlags s).t0 = s.t0 := rfl
@[simp] theorem clearFlags_sched (s : State) : (clearFlags s).sched = s.sched := rfl
@[simp] theorem clearFlags_busRead (s : State) : (clearFlags s).busRead = s.busRead := rfl
@[simp] theorem clearFlags_script (s : State) : (clearFlags s).script = s.script := rfl
@[simp] theorem clearFlags_cycle (s : State) : (clearFlags s).cycle = s.cycle := rfl

/-! ## recordError -/

@[simp] theorem recordError_buf (c : ErrCode) (s : State) : (recordError c s).buf = s.buf := rfl
@[simp] theorem recordError_seed (c : ErrCode) (s : State) : (recordError c s).seed = s.seed := rfl
@[simp] theorem recordError_bufWmask (c : ErrCode) (s : State) : (recordError c s).bufWmask = s.bufWmask := rfl
@[simp] theorem recordError_seedWmask (c : ErrCode) (s : State) : (recordError c s).seedWmask = s.seedWmask := rfl
@[simp] theorem recordError_rounds (c : ErrCode) (s : State) : (recordError c s).rounds = s.rounds := rfl
@[simp] theorem recordError_budget (c : ErrCode) (s : State) : (recordError c s).budget = s.budget := rfl
@[simp] theorem recordError_result (c : ErrCode) (s : State) : (recordError c s).result = s.result := rfl
@[simp] theorem recordError_done (c : ErrCode) (s : State) : (recordError c s).done = s.done := rfl
@[simp] theorem recordError_err (c : ErrCode) (s : State) : (recordError c s).err = c := rfl
@[simp] theorem recordError_sat (c : ErrCode) (s : State) : (recordError c s).sat = s.sat := rfl
@[simp] theorem recordError_wrIgnored (c : ErrCode) (s : State) : (recordError c s).wrIgnored = s.wrIgnored := rfl
@[simp] theorem recordError_ie (c : ErrCode) (s : State) : (recordError c s).ie = s.ie := rfl
@[simp] theorem recordError_fsm (c : ErrCode) (s : State) : (recordError c s).fsm = s.fsm := rfl
@[simp] theorem recordError_op (c : ErrCode) (s : State) : (recordError c s).op = s.op := rfl
@[simp] theorem recordError_rc (c : ErrCode) (s : State) : (recordError c s).rc = s.rc := rfl
@[simp] theorem recordError_bc (c : ErrCode) (s : State) : (recordError c s).bc = s.bc := rfl
@[simp] theorem recordError_acc (c : ErrCode) (s : State) : (recordError c s).acc = s.acc := rfl
@[simp] theorem recordError_t0 (c : ErrCode) (s : State) : (recordError c s).t0 = s.t0 := rfl
@[simp] theorem recordError_sched (c : ErrCode) (s : State) : (recordError c s).sched = s.sched := rfl
@[simp] theorem recordError_busRead (c : ErrCode) (s : State) : (recordError c s).busRead = s.busRead := rfl
@[simp] theorem recordError_script (c : ErrCode) (s : State) : (recordError c s).script = s.script := rfl
@[simp] theorem recordError_cycle (c : ErrCode) (s : State) : (recordError c s).cycle = s.cycle := rfl

/-! ## raiseError -/

@[simp] theorem raiseError_buf (s : State) : (raiseError s).buf = s.buf := rfl
@[simp] theorem raiseError_seed (s : State) : (raiseError s).seed = s.seed := rfl
@[simp] theorem raiseError_bufWmask (s : State) : (raiseError s).bufWmask = s.bufWmask := rfl
@[simp] theorem raiseError_seedWmask (s : State) : (raiseError s).seedWmask = s.seedWmask := rfl
@[simp] theorem raiseError_rounds (s : State) : (raiseError s).rounds = s.rounds := rfl
@[simp] theorem raiseError_budget (s : State) : (raiseError s).budget = s.budget := rfl
@[simp] theorem raiseError_result (s : State) : (raiseError s).result = s.result := rfl
@[simp] theorem raiseError_done (s : State) : (raiseError s).done = s.done := rfl
@[simp] theorem raiseError_err (s : State) : (raiseError s).err = s.err := rfl
@[simp] theorem raiseError_sat (s : State) : (raiseError s).sat = s.sat := rfl
@[simp] theorem raiseError_wrIgnored (s : State) : (raiseError s).wrIgnored = s.wrIgnored := rfl
@[simp] theorem raiseError_ie (s : State) : (raiseError s).ie = s.ie := rfl
@[simp] theorem raiseError_fsm (s : State) : (raiseError s).fsm = Fsm.fail := rfl
@[simp] theorem raiseError_op (s : State) : (raiseError s).op = s.op := rfl
@[simp] theorem raiseError_rc (s : State) : (raiseError s).rc = s.rc := rfl
@[simp] theorem raiseError_bc (s : State) : (raiseError s).bc = s.bc := rfl
@[simp] theorem raiseError_acc (s : State) : (raiseError s).acc = s.acc := rfl
@[simp] theorem raiseError_t0 (s : State) : (raiseError s).t0 = s.t0 := rfl
@[simp] theorem raiseError_sched (s : State) : (raiseError s).sched = s.sched := rfl
@[simp] theorem raiseError_busRead (s : State) : (raiseError s).busRead = s.busRead := rfl
@[simp] theorem raiseError_script (s : State) : (raiseError s).script = s.script := rfl
@[simp] theorem raiseError_cycle (s : State) : (raiseError s).cycle = s.cycle := rfl

/-! ## wipeSeed -/

@[simp] theorem wipeSeed_buf (s : State) : (wipeSeed s).buf = s.buf := rfl
@[simp] theorem wipeSeed_seed (s : State) : (wipeSeed s).seed = 0#256 := rfl
@[simp] theorem wipeSeed_bufWmask (s : State) : (wipeSeed s).bufWmask = s.bufWmask := rfl
@[simp] theorem wipeSeed_seedWmask (s : State) : (wipeSeed s).seedWmask = 0x00#8 := rfl
@[simp] theorem wipeSeed_rounds (s : State) : (wipeSeed s).rounds = s.rounds := rfl
@[simp] theorem wipeSeed_budget (s : State) : (wipeSeed s).budget = s.budget := rfl
@[simp] theorem wipeSeed_result (s : State) : (wipeSeed s).result = s.result := rfl
@[simp] theorem wipeSeed_done (s : State) : (wipeSeed s).done = s.done := rfl
@[simp] theorem wipeSeed_err (s : State) : (wipeSeed s).err = s.err := rfl
@[simp] theorem wipeSeed_sat (s : State) : (wipeSeed s).sat = s.sat := rfl
@[simp] theorem wipeSeed_wrIgnored (s : State) : (wipeSeed s).wrIgnored = s.wrIgnored := rfl
@[simp] theorem wipeSeed_ie (s : State) : (wipeSeed s).ie = s.ie := rfl
@[simp] theorem wipeSeed_fsm (s : State) : (wipeSeed s).fsm = s.fsm := rfl
@[simp] theorem wipeSeed_op (s : State) : (wipeSeed s).op = s.op := rfl
@[simp] theorem wipeSeed_rc (s : State) : (wipeSeed s).rc = s.rc := rfl
@[simp] theorem wipeSeed_bc (s : State) : (wipeSeed s).bc = s.bc := rfl
@[simp] theorem wipeSeed_acc (s : State) : (wipeSeed s).acc = s.acc := rfl
@[simp] theorem wipeSeed_t0 (s : State) : (wipeSeed s).t0 = s.t0 := rfl
@[simp] theorem wipeSeed_sched (s : State) : (wipeSeed s).sched = s.sched := rfl
@[simp] theorem wipeSeed_busRead (s : State) : (wipeSeed s).busRead = s.busRead := rfl
@[simp] theorem wipeSeed_script (s : State) : (wipeSeed s).script = s.script := rfl
@[simp] theorem wipeSeed_cycle (s : State) : (wipeSeed s).cycle = s.cycle := rfl

/-! ## schedClear -/

@[simp] theorem schedClear_buf (s : State) : (schedClear s).buf = s.buf := rfl
@[simp] theorem schedClear_seed (s : State) : (schedClear s).seed = s.seed := rfl
@[simp] theorem schedClear_bufWmask (s : State) : (schedClear s).bufWmask = s.bufWmask := rfl
@[simp] theorem schedClear_seedWmask (s : State) : (schedClear s).seedWmask = s.seedWmask := rfl
@[simp] theorem schedClear_rounds (s : State) : (schedClear s).rounds = s.rounds := rfl
@[simp] theorem schedClear_budget (s : State) : (schedClear s).budget = s.budget := rfl
@[simp] theorem schedClear_result (s : State) : (schedClear s).result = s.result := rfl
@[simp] theorem schedClear_done (s : State) : (schedClear s).done = s.done := rfl
@[simp] theorem schedClear_err (s : State) : (schedClear s).err = s.err := rfl
@[simp] theorem schedClear_sat (s : State) : (schedClear s).sat = s.sat := rfl
@[simp] theorem schedClear_wrIgnored (s : State) : (schedClear s).wrIgnored = s.wrIgnored := rfl
@[simp] theorem schedClear_ie (s : State) : (schedClear s).ie = s.ie := rfl
@[simp] theorem schedClear_fsm (s : State) : (schedClear s).fsm = s.fsm := rfl
@[simp] theorem schedClear_op (s : State) : (schedClear s).op = s.op := rfl
@[simp] theorem schedClear_rc (s : State) : (schedClear s).rc = s.rc := rfl
@[simp] theorem schedClear_bc (s : State) : (schedClear s).bc = s.bc := rfl
@[simp] theorem schedClear_acc (s : State) : (schedClear s).acc = s.acc := rfl
@[simp] theorem schedClear_t0 (s : State) : (schedClear s).t0 = s.t0 := rfl
@[simp] theorem schedClear_sched (s : State) : (schedClear s).sched = none := rfl
@[simp] theorem schedClear_busRead (s : State) : (schedClear s).busRead = s.busRead := rfl
@[simp] theorem schedClear_script (s : State) : (schedClear s).script = s.script := rfl
@[simp] theorem schedClear_cycle (s : State) : (schedClear s).cycle = s.cycle := rfl

/-! ## endCommand -/

@[simp] theorem endCommand_buf (s : State) : (endCommand s).buf = s.buf := rfl
@[simp] theorem endCommand_seed (s : State) : (endCommand s).seed = 0#256 := rfl
@[simp] theorem endCommand_bufWmask (s : State) : (endCommand s).bufWmask = s.bufWmask := rfl
@[simp] theorem endCommand_seedWmask (s : State) : (endCommand s).seedWmask = 0x00#8 := rfl
@[simp] theorem endCommand_rounds (s : State) : (endCommand s).rounds = s.rounds := rfl
@[simp] theorem endCommand_budget (s : State) : (endCommand s).budget = s.budget := rfl
@[simp] theorem endCommand_result (s : State) : (endCommand s).result = s.result := rfl
@[simp] theorem endCommand_done (s : State) : (endCommand s).done = s.done := rfl
@[simp] theorem endCommand_err (s : State) : (endCommand s).err = s.err := rfl
@[simp] theorem endCommand_sat (s : State) : (endCommand s).sat = s.sat := rfl
@[simp] theorem endCommand_wrIgnored (s : State) : (endCommand s).wrIgnored = s.wrIgnored := rfl
@[simp] theorem endCommand_ie (s : State) : (endCommand s).ie = s.ie := rfl
@[simp] theorem endCommand_fsm (s : State) : (endCommand s).fsm = Fsm.idle := rfl
@[simp] theorem endCommand_op (s : State) : (endCommand s).op = s.op := rfl
@[simp] theorem endCommand_rc (s : State) : (endCommand s).rc = s.rc := rfl
@[simp] theorem endCommand_bc (s : State) : (endCommand s).bc = s.bc := rfl
@[simp] theorem endCommand_acc (s : State) : (endCommand s).acc = s.acc := rfl
@[simp] theorem endCommand_t0 (s : State) : (endCommand s).t0 = s.t0 := rfl
@[simp] theorem endCommand_sched (s : State) : (endCommand s).sched = none := rfl
@[simp] theorem endCommand_busRead (s : State) : (endCommand s).busRead = s.busRead := rfl
@[simp] theorem endCommand_script (s : State) : (endCommand s).script = s.script := rfl
@[simp] theorem endCommand_cycle (s : State) : (endCommand s).cycle = s.cycle := rfl

/-! ## beginCycle -/

@[simp] theorem beginCycle_buf (s : State) : (beginCycle s).buf = s.buf := rfl
@[simp] theorem beginCycle_seed (s : State) : (beginCycle s).seed = s.seed := rfl
@[simp] theorem beginCycle_bufWmask (s : State) : (beginCycle s).bufWmask = s.bufWmask := rfl
@[simp] theorem beginCycle_seedWmask (s : State) : (beginCycle s).seedWmask = s.seedWmask := rfl
@[simp] theorem beginCycle_rounds (s : State) : (beginCycle s).rounds = s.rounds := rfl
@[simp] theorem beginCycle_budget (s : State) : (beginCycle s).budget = s.budget := rfl
@[simp] theorem beginCycle_result (s : State) : (beginCycle s).result = s.result := rfl
@[simp] theorem beginCycle_done (s : State) : (beginCycle s).done = s.done := rfl
@[simp] theorem beginCycle_err (s : State) : (beginCycle s).err = s.err := rfl
@[simp] theorem beginCycle_sat (s : State) : (beginCycle s).sat = s.sat := rfl
@[simp] theorem beginCycle_wrIgnored (s : State) : (beginCycle s).wrIgnored = s.wrIgnored := rfl
@[simp] theorem beginCycle_ie (s : State) : (beginCycle s).ie = s.ie := rfl
@[simp] theorem beginCycle_fsm (s : State) : (beginCycle s).fsm = s.fsm := rfl
@[simp] theorem beginCycle_op (s : State) : (beginCycle s).op = s.op := rfl
@[simp] theorem beginCycle_rc (s : State) : (beginCycle s).rc = s.rc := rfl
@[simp] theorem beginCycle_bc (s : State) : (beginCycle s).bc = s.bc := rfl
@[simp] theorem beginCycle_acc (s : State) : (beginCycle s).acc = s.acc := rfl
@[simp] theorem beginCycle_t0 (s : State) : (beginCycle s).t0 = s.t0 := rfl
@[simp] theorem beginCycle_sched (s : State) : (beginCycle s).sched = s.sched := rfl
@[simp] theorem beginCycle_busRead (s : State) : (beginCycle s).busRead = none := rfl
@[simp] theorem beginCycle_script (s : State) : (beginCycle s).script = s.script.tail := rfl
@[simp] theorem beginCycle_cycle (s : State) : (beginCycle s).cycle = s.cycle + 1 := rfl

/-! ## clearData -/

@[simp] theorem clearData_buf (s : State) : (clearData s).buf = 0#256 := rfl
@[simp] theorem clearData_seed (s : State) : (clearData s).seed = 0#256 := rfl
@[simp] theorem clearData_bufWmask (s : State) : (clearData s).bufWmask = 0x00#8 := rfl
@[simp] theorem clearData_seedWmask (s : State) : (clearData s).seedWmask = 0x00#8 := rfl
@[simp] theorem clearData_rounds (s : State) : (clearData s).rounds = 0#64 := rfl
@[simp] theorem clearData_budget (s : State) : (clearData s).budget = 0#64 := rfl
@[simp] theorem clearData_result (s : State) : (clearData s).result = 0#64 := rfl
@[simp] theorem clearData_done (s : State) : (clearData s).done = s.done := rfl
@[simp] theorem clearData_err (s : State) : (clearData s).err = s.err := rfl
@[simp] theorem clearData_sat (s : State) : (clearData s).sat = s.sat := rfl
@[simp] theorem clearData_wrIgnored (s : State) : (clearData s).wrIgnored = s.wrIgnored := rfl
@[simp] theorem clearData_ie (s : State) : (clearData s).ie = s.ie := rfl
@[simp] theorem clearData_fsm (s : State) : (clearData s).fsm = s.fsm := rfl
@[simp] theorem clearData_op (s : State) : (clearData s).op = Op.transform := rfl
@[simp] theorem clearData_rc (s : State) : (clearData s).rc = 0#64 := rfl
@[simp] theorem clearData_bc (s : State) : (clearData s).bc = 0#4 := rfl
@[simp] theorem clearData_acc (s : State) : (clearData s).acc = 0#64 := rfl
@[simp] theorem clearData_t0 (s : State) : (clearData s).t0 = 0#64 := rfl
@[simp] theorem clearData_sched (s : State) : (clearData s).sched = s.sched := rfl
@[simp] theorem clearData_busRead (s : State) : (clearData s).busRead = s.busRead := rfl
@[simp] theorem clearData_script (s : State) : (clearData s).script = s.script := rfl
@[simp] theorem clearData_cycle (s : State) : (clearData s).cycle = s.cycle := rfl

/-! ## acceptTransform -/

@[simp] theorem acceptTransform_buf (s : State) : (acceptTransform s).buf = s.buf := rfl
@[simp] theorem acceptTransform_seed (s : State) : (acceptTransform s).seed = s.seed := rfl
@[simp] theorem acceptTransform_bufWmask (s : State) : (acceptTransform s).bufWmask = s.bufWmask := rfl
@[simp] theorem acceptTransform_seedWmask (s : State) : (acceptTransform s).seedWmask = s.seedWmask := rfl
@[simp] theorem acceptTransform_rounds (s : State) : (acceptTransform s).rounds = s.rounds := rfl
@[simp] theorem acceptTransform_budget (s : State) : (acceptTransform s).budget = s.budget := rfl
@[simp] theorem acceptTransform_result (s : State) : (acceptTransform s).result = s.result := rfl
@[simp] theorem acceptTransform_done (s : State) : (acceptTransform s).done = s.done := rfl
@[simp] theorem acceptTransform_err (s : State) : (acceptTransform s).err = s.err := rfl
@[simp] theorem acceptTransform_sat (s : State) : (acceptTransform s).sat = s.sat := rfl
@[simp] theorem acceptTransform_wrIgnored (s : State) : (acceptTransform s).wrIgnored = s.wrIgnored := rfl
@[simp] theorem acceptTransform_ie (s : State) : (acceptTransform s).ie = s.ie := rfl
@[simp] theorem acceptTransform_fsm (s : State) : (acceptTransform s).fsm = Fsm.keysetup := rfl
@[simp] theorem acceptTransform_op (s : State) : (acceptTransform s).op = Op.transform := rfl
@[simp] theorem acceptTransform_rc (s : State) : (acceptTransform s).rc = 0#64 := rfl
@[simp] theorem acceptTransform_bc (s : State) : (acceptTransform s).bc = s.bc := rfl
@[simp] theorem acceptTransform_acc (s : State) : (acceptTransform s).acc = s.acc := rfl
@[simp] theorem acceptTransform_t0 (s : State) : (acceptTransform s).t0 = s.t0 := rfl
@[simp] theorem acceptTransform_sched (s : State) : (acceptTransform s).sched = s.sched := rfl
@[simp] theorem acceptTransform_busRead (s : State) : (acceptTransform s).busRead = s.busRead := rfl
@[simp] theorem acceptTransform_script (s : State) : (acceptTransform s).script = s.script := rfl
@[simp] theorem acceptTransform_cycle (s : State) : (acceptTransform s).cycle = s.cycle := rfl

/-! ## acceptCalibrate -/

@[simp] theorem acceptCalibrate_buf (s : State) : (acceptCalibrate s).buf = s.buf := rfl
@[simp] theorem acceptCalibrate_seed (s : State) : (acceptCalibrate s).seed = s.seed := rfl
@[simp] theorem acceptCalibrate_bufWmask (s : State) : (acceptCalibrate s).bufWmask = s.bufWmask := rfl
@[simp] theorem acceptCalibrate_seedWmask (s : State) : (acceptCalibrate s).seedWmask = s.seedWmask := rfl
@[simp] theorem acceptCalibrate_rounds (s : State) : (acceptCalibrate s).rounds = s.rounds := rfl
@[simp] theorem acceptCalibrate_budget (s : State) : (acceptCalibrate s).budget = s.budget := rfl
@[simp] theorem acceptCalibrate_result (s : State) : (acceptCalibrate s).result = s.result := rfl
@[simp] theorem acceptCalibrate_done (s : State) : (acceptCalibrate s).done = s.done := rfl
@[simp] theorem acceptCalibrate_err (s : State) : (acceptCalibrate s).err = s.err := rfl
@[simp] theorem acceptCalibrate_sat (s : State) : (acceptCalibrate s).sat = s.sat := rfl
@[simp] theorem acceptCalibrate_wrIgnored (s : State) : (acceptCalibrate s).wrIgnored = s.wrIgnored := rfl
@[simp] theorem acceptCalibrate_ie (s : State) : (acceptCalibrate s).ie = s.ie := rfl
@[simp] theorem acceptCalibrate_fsm (s : State) : (acceptCalibrate s).fsm = Fsm.keysetup := rfl
@[simp] theorem acceptCalibrate_op (s : State) : (acceptCalibrate s).op = Op.calibrate := rfl
@[simp] theorem acceptCalibrate_rc (s : State) : (acceptCalibrate s).rc = s.rc := rfl
@[simp] theorem acceptCalibrate_bc (s : State) : (acceptCalibrate s).bc = 0#4 := rfl
@[simp] theorem acceptCalibrate_acc (s : State) : (acceptCalibrate s).acc = 0#64 := rfl
@[simp] theorem acceptCalibrate_t0 (s : State) : (acceptCalibrate s).t0 = s.t0 := rfl
@[simp] theorem acceptCalibrate_sched (s : State) : (acceptCalibrate s).sched = s.sched := rfl
@[simp] theorem acceptCalibrate_busRead (s : State) : (acceptCalibrate s).busRead = s.busRead := rfl
@[simp] theorem acceptCalibrate_script (s : State) : (acceptCalibrate s).script = s.script := rfl
@[simp] theorem acceptCalibrate_cycle (s : State) : (acceptCalibrate s).cycle = s.cycle := rfl

/-! ## engine -/

@[simp] theorem engine_buf (s : State) : (s.engine).buf = s.buf := rfl
@[simp] theorem engine_seed (s : State) : (s.engine).seed = s.seed := rfl
@[simp] theorem engine_bufWmask (s : State) : (s.engine).bufWmask = s.bufWmask := rfl
@[simp] theorem engine_seedWmask (s : State) : (s.engine).seedWmask = s.seedWmask := rfl
@[simp] theorem engine_rounds (s : State) : (s.engine).rounds = s.rounds := rfl
@[simp] theorem engine_budget (s : State) : (s.engine).budget = s.budget := rfl
@[simp] theorem engine_result (s : State) : (s.engine).result = s.result := rfl
@[simp] theorem engine_done (s : State) : (s.engine).done = s.done := rfl
@[simp] theorem engine_err (s : State) : (s.engine).err = s.err := rfl
@[simp] theorem engine_sat (s : State) : (s.engine).sat = s.sat := rfl
@[simp] theorem engine_wrIgnored (s : State) : (s.engine).wrIgnored = false := rfl
@[simp] theorem engine_ie (s : State) : (s.engine).ie = s.ie := rfl
@[simp] theorem engine_fsm (s : State) : (s.engine).fsm = s.fsm := rfl
@[simp] theorem engine_op (s : State) : (s.engine).op = s.op := rfl
@[simp] theorem engine_rc (s : State) : (s.engine).rc = s.rc := rfl
@[simp] theorem engine_bc (s : State) : (s.engine).bc = s.bc := rfl
@[simp] theorem engine_acc (s : State) : (s.engine).acc = s.acc := rfl
@[simp] theorem engine_t0 (s : State) : (s.engine).t0 = s.t0 := rfl
@[simp] theorem engine_sched (s : State) : (s.engine).sched = s.sched := rfl
@[simp] theorem engine_busRead (s : State) : (s.engine).busRead = none := rfl
@[simp] theorem engine_script (s : State) : (s.engine).script = [] := rfl
@[simp] theorem engine_cycle (s : State) : (s.engine).cycle = 0 := rfl

end Sys2Proof.Machine
end

