-- ==== Sys2Proof/Laws/Ops.lean ====
section
/-! SUPPORT. What each shared operation can do, said once. -/

namespace Sys2Proof.Machine

theorem busy_iff (s : State) : s.busy = true ↔ s.fsm ≠ .idle := by simp [State.busy]

theorem not_busy_iff (s : State) : s.busy = false ↔ s.fsm = .idle := by simp [State.busy]

@[simp] theorem busy_clearFlags (s : State) : (clearFlags s).busy = s.busy := rfl
@[simp] theorem busy_beginCycle (s : State) : (beginCycle s).busy = s.busy := rfl
@[simp] theorem busy_dropWrite (s : State) : (dropWrite s).busy = s.busy := rfl
@[simp] theorem busy_busReturn (v : Word) (s : State) : (busReturn v s).busy = s.busy := rfl

/-- A write to a busy block is dropped (R102). -/
theorem busWrite_of_busy {effect : State → State} {s : State} (h : s.busy = true) :
    busWrite effect s = dropWrite s := by simp [busWrite, h]

/-- A write to an idle block has its row's effect (R101). -/
theorem busWrite_of_idle {effect : State → State} {s : State} (h : s.busy = false) :
    busWrite effect s = effect s := by simp [busWrite, h]

theorem commandWrite_of_busy {effect : State → State} {s : State} (h : s.busy = true) :
    commandWrite effect s = dropWrite s := busWrite_of_busy h

/-- A command write to an idle block: the flags are cleared, then the code's effect follows (R130). -/
theorem commandWrite_of_idle {effect : State → State} {s : State} (h : s.busy = false) :
    commandWrite effect s = effect (clearFlags s) := busWrite_of_idle h

theorem argumentsPresent_iff (s : State) :
    argumentsPresent s = true ↔ s.bufWmask = 0xFF#8 ∧ s.seedWmask = 0xFF#8 := by
  simp [argumentsPresent]

@[simp] theorem argumentsPresent_clearFlags (s : State) : argumentsPresent (clearFlags s) = argumentsPresent s := rfl

/-- A command with its arguments present is accepted (R132, R134). -/
theorem startCommand_of_present {accept : State → State} {s : State} (h : argumentsPresent s = true) :
    startCommand accept s = accept s := by simp [startCommand, h]

/-- A command without them is rejected with INVALID_ARGUMENT and changes nothing else (R138). -/
theorem startCommand_of_missing {accept : State → State} {s : State} (h : argumentsPresent s = false) :
    startCommand accept s = recordError .invalidArgument s := by simp [startCommand, h]

/-- The inputs of the cycle are the first listed ones. -/
theorem cycleInput_of_script {s : State} {inp : CycleInput} {rest : List CycleInput} (h : s.script = inp :: rest) :
    cycleInput s = inp := by simp [cycleInput, h]

/-- `TimeSample()` gives `ok(t)` exactly when the port is valid and shows `t` (R215). -/
theorem timeSample_eq_some_iff (inp : CycleInput) (t : Count) :
    timeSample inp = some t ↔ inp.time.valid = true ∧ inp.time.now = t := by
  unfold timeSample
  split <;> simp_all

/-- `TimeSample()` gives `unavailable` exactly when the port is not valid (R215). -/
theorem timeSample_eq_none_iff (inp : CycleInput) : timeSample inp = none ↔ inp.time.valid = false := by
  simp [timeSample]

/-- A dutiful core answers with its schedule's key (R173). -/
theorem encAnswer_dutiful {inp : CycleInput} {s : State} {k : Bytes32} (b : Bytes16) (h : inp.encOut = none)
    (hs : s.sched = some k) : encAnswer inp s b = Config.enc k b := by simp [encAnswer, h, hs]

/-- A core that drives a value returns that value (I19). -/
theorem encAnswer_driven {inp : CycleInput} {v : Bytes16} (s : State) (b : Bytes16) (h : inp.encOut = some v) :
    encAnswer inp s b = v := by simp [encAnswer, h]

end Sys2Proof.Machine
end

