-- ==== Sys2Proof/Laws/Cycle.lean ====
section
/-! SUPPORT. What a host access and a clock cycle can do to a busy block, and what the sequencer's step never touches. -/

namespace Sys2Proof.Machine

/-! ## The sequencer's step leaves the host's registers and the cycle's bookkeeping alone -/

section
variable (f : Fsm) (inp : CycleInput) (s : State)

/-- What no sequencer step writes: the operand registers, IRQ_EN, the buffer's mask, WR_IGNORED, the latched command and
the model's own fields. -/
theorem sequencerStep_frame :
    (sequencerStep f inp s).rounds = s.rounds ∧ (sequencerStep f inp s).budget = s.budget ∧
    (sequencerStep f inp s).ie = s.ie ∧ (sequencerStep f inp s).bufWmask = s.bufWmask ∧
    (sequencerStep f inp s).wrIgnored = s.wrIgnored ∧ (sequencerStep f inp s).op = s.op ∧
    (sequencerStep f inp s).busRead = s.busRead ∧ (sequencerStep f inp s).script = s.script ∧
    (sequencerStep f inp s).cycle = s.cycle := by
  cases f
  case idle => simp [sequencerStep]
  case keysetup => simp only [sequencerStep, stepKeysetup]; split <;> simp
  case t0 => simp only [sequencerStep, stepT0]; split <;> simp
  case batchCheck => simp only [sequencerStep, stepBatchCheck]; split <;> simp
  case encA => simp only [sequencerStep, stepEncA]; split <;> simp
  case encB =>
    simp only [sequencerStep, stepEncB, roundComplete, roundCompleteTransform, roundCompleteCalibrate]
    split
    · split
      · simp
      · split <;> simp
    · simp
  case sample => simp only [sequencerStep, stepSample]; split <;> simp
  case finish => simp [sequencerStep, stepFinish, endCommand, wipeSeed, schedClear]
  case fail => simp [sequencerStep, stepFail, endCommand, wipeSeed, schedClear, recordError]

@[simp] theorem sequencerStep_rounds : (sequencerStep f inp s).rounds = s.rounds := (sequencerStep_frame f inp s).1
@[simp] theorem sequencerStep_budget : (sequencerStep f inp s).budget = s.budget := (sequencerStep_frame f inp s).2.1
@[simp] theorem sequencerStep_ie : (sequencerStep f inp s).ie = s.ie := (sequencerStep_frame f inp s).2.2.1
@[simp] theorem sequencerStep_bufWmask : (sequencerStep f inp s).bufWmask = s.bufWmask :=
  (sequencerStep_frame f inp s).2.2.2.1
@[simp] theorem sequencerStep_wrIgnored : (sequencerStep f inp s).wrIgnored = s.wrIgnored :=
  (sequencerStep_frame f inp s).2.2.2.2.1
@[simp] theorem sequencerStep_op : (sequencerStep f inp s).op = s.op := (sequencerStep_frame f inp s).2.2.2.2.2.1
@[simp] theorem sequencerStep_busRead : (sequencerStep f inp s).busRead = s.busRead :=
  (sequencerStep_frame f inp s).2.2.2.2.2.2.1
@[simp] theorem sequencerStep_script : (sequencerStep f inp s).script = s.script :=
  (sequencerStep_frame f inp s).2.2.2.2.2.2.2.1
@[simp] theorem sequencerStep_cycle : (sequencerStep f inp s).cycle = s.cycle :=
  (sequencerStep_frame f inp s).2.2.2.2.2.2.2.2

end

/-! ## The step on a listed input -/

/-- The step, with the first listed inputs as the cycle's (R61, R208). -/
theorem step_of_script {s : State} {inp : CycleInput} {rest : List CycleInput} (hs : s.script = inp :: rest) :
    step s =
      if inp.rst then .next (resetCycle inp (beginCycle s))
      else
        match performAccess inp.access (beginCycle s) with
        | .next s' => .next (sequencerStep s.fsm inp s')
        | .fault r => .fault r
        | .refused r => .refused r := by
  have hc : cycleInput s = inp := cycleInput_of_script hs
  subst hc
  rfl

/-! ## A host access to a busy block -/

/-- A host access to a busy block returns read data or is dropped; nothing else (R59, R102). -/
theorem exec_of_busy (i : Instr) {s : State} (h : s.busy = true) :
    exec i s = .next (dropWrite s) ∨ ∃ v, exec i s = .next (busReturn v s) := by
  cases i <;>
    first
      | exact .inr ⟨_, rfl⟩
      | exact .inl (congrArg Host.Outcome.next (busWrite_of_busy h))

/-- What the host access of a cycle can leave of a busy block: the state itself, a returned word, or a dropped write. -/
inductive BusOnly (s : State) : State → Prop where
  | none : BusOnly s s
  | read (v : Word) : BusOnly s (busReturn v s)
  | dropped : BusOnly s (dropWrite s)

/-- The block's own registers after the host access of a busy cycle. -/
theorem busOnly_fields {s u : State} (h : BusOnly s u) :
    u.buf = s.buf ∧ u.seed = s.seed ∧ u.bufWmask = s.bufWmask ∧ u.seedWmask = s.seedWmask ∧ u.rounds = s.rounds ∧
    u.budget = s.budget ∧ u.result = s.result ∧ u.done = s.done ∧ u.err = s.err ∧ u.sat = s.sat ∧ u.ie = s.ie ∧
    u.fsm = s.fsm ∧ u.op = s.op ∧ u.rc = s.rc ∧ u.bc = s.bc ∧ u.acc = s.acc ∧ u.t0 = s.t0 ∧ u.sched = s.sched := by
  cases h <;> simp

/-- The host access of a busy cycle leaves the engine alone. -/
theorem busOnly_engine {s u : State} (h : BusOnly (beginCycle s) u) : u.engine = s.engine := by
  cases h <;> rfl

/-- Two states with equal engines agree in every register but WR_IGNORED. -/
theorem engine_fields {s t : State} (h : t.engine = s.engine) :
    t.buf = s.buf ∧ t.seed = s.seed ∧ t.bufWmask = s.bufWmask ∧ t.seedWmask = s.seedWmask ∧ t.rounds = s.rounds ∧
    t.budget = s.budget ∧ t.result = s.result ∧ t.done = s.done ∧ t.err = s.err ∧ t.sat = s.sat ∧ t.ie = s.ie ∧
    t.fsm = s.fsm ∧ t.op = s.op ∧ t.rc = s.rc ∧ t.bc = s.bc ∧ t.acc = s.acc ∧ t.t0 = s.t0 ∧ t.sched = s.sched := by
  simp only [State.engine, State.mk.injEq] at h
  simp_all

/-- The cycle of a busy block without reset: its access touches the bus fields only, then the sequencer steps (R61). -/
theorem step_of_busy {s : State} (hb : s.busy = true) (hr : (cycleInput s).rst = false) :
    ∃ s', BusOnly (beginCycle s) s' ∧ step s = .next (sequencerStep s.fsm (cycleInput s) s') := by
  have hb' : (beginCycle s).busy = true := hb
  cases ha : (cycleInput s).access with
  | none => exact ⟨_, .none, by simp [step, clockCycle, hr, ha, performAccess]⟩
  | some w =>
    rcases exec_of_busy (decode w) hb' with h | ⟨v, h⟩
    · exact ⟨_, .dropped, by simp [step, clockCycle, hr, ha, performAccess, h]⟩
    · exact ⟨_, .read v, by simp [step, clockCycle, hr, ha, performAccess, h]⟩

end Sys2Proof.Machine
end

