-- ==== Sys2Proof/Laws/Encoding.lean ====
section
/-! SUPPORT. The fields of an access word that was put together from fields, and the fields of a command word. -/

namespace Sys2Proof
/-- Bit by bit: `data` at 31..0, `off[1:0]` at 33..32, `off[7:2]` at 39..34, `we` at 40 (R70). -/
theorem AccessWord.getLsbD_ofFields (we : BitVec 1) (word : BitVec 6) (lane : BitVec 2) (data : Word) (i : Nat) :
    (AccessWord.ofFields we word lane data).getLsbD i =
      if i < 32 then data.getLsbD i else if i < 34 then lane.getLsbD (i - 32)
      else if i < 40 then word.getLsbD (i - 34) else we.getLsbD (i - 40) := by
  have h : (we ++ word ++ lane ++ data).getLsbD i = _ := BitVec.getLsbD_append
  refine Eq.trans h ?_
  simp only [BitVec.getLsbD_append]
  by_cases h1 : i < 32
  · simp [h1]
  · by_cases h2 : i < 34
    · simp [h1, h2, show i - 32 < 2 by omega]
    · by_cases h3 : i < 40
      · simp [h1, h2, h3, show ¬ (i - 32 < 2) by omega, show i - 32 - 2 = i - 34 by omega, show i - 34 < 6 by omega]
      · simp [h1, h2, h3, show ¬ (i - 32 < 2) by omega, show ¬ (i - 32 - 2 < 6) by omega, show i - 32 - 2 - 6 = i - 40 by omega]

section
variable (we : BitVec 1) (word : BitVec 6) (lane : BitVec 2) (data : Word)

@[simp] theorem AccessWord.data_ofFields : (AccessWord.ofFields we word lane data).data = data := by
  apply BitVec.eq_of_getLsbD_eq
  intro i hi
  simp only [AccessWord.data, BitVec.getLsbD_extractLsb', AccessWord.getLsbD_ofFields]
  simp [hi]

@[simp] theorem AccessWord.lane_ofFields : (AccessWord.ofFields we word lane data).lane = lane := by
  apply BitVec.eq_of_getLsbD_eq
  intro i hi
  simp only [AccessWord.lane, BitVec.getLsbD_extractLsb', AccessWord.getLsbD_ofFields]
  simp [hi, show 32 + i < 34 by omega]

@[simp] theorem AccessWord.word_ofFields : (AccessWord.ofFields we word lane data).word = word := by
  apply BitVec.eq_of_getLsbD_eq
  intro i hi
  simp only [AccessWord.word, BitVec.getLsbD_extractLsb', AccessWord.getLsbD_ofFields]
  simp [hi, show ¬ (34 + i < 32) by omega, show 34 + i < 40 by omega]

@[simp] theorem AccessWord.we_ofFields : (AccessWord.ofFields we word lane data).we = we := by
  apply BitVec.eq_of_getLsbD_eq
  intro i hi
  simp only [AccessWord.we, BitVec.getLsbD_extractLsb', AccessWord.getLsbD_ofFields]
  simp [hi, show ¬ (40 + i < 32) by omega, show ¬ (40 + i < 34) by omega]

/-- An access word is its four fields. -/
theorem AccessWord.ofFields_fields (w : AccessWord) : AccessWord.ofFields w.we w.word w.lane w.data = w := by
  apply BitVec.eq_of_getLsbD_eq
  intro i hi
  rw [AccessWord.getLsbD_ofFields]
  simp only [AccessWord.we, AccessWord.word, AccessWord.lane, AccessWord.data, BitVec.getLsbD_extractLsb']
  split
  · simp [*]
  · split
    · simp [show i - 32 < 2 by omega, show 32 + (i - 32) = i by omega]
    · split
      · simp [show i - 34 < 6 by omega, show 34 + (i - 34) = i by omega]
      · simp [show i = 40 by omega]
end

/-- The code of a command word is its low four bits (R71). -/
theorem code_of_command (ignored : BitVec 28) (code : BitVec 4) :
    (ignored ++ code : Word).extractLsb' 0 4 = code := by
  apply BitVec.eq_of_getLsbD_eq
  intro i hi
  have h : (ignored ++ code).getLsbD i = _ := BitVec.getLsbD_append
  rw [BitVec.getLsbD_extractLsb', Nat.zero_add]
  refine (congrArg (decide (i < 4) && ·) h).trans ?_
  simp [hi]

/-- The ignored bits of a command word are the other 28 (R71). -/
theorem ignored_of_command (ignored : BitVec 28) (code : BitVec 4) :
    (ignored ++ code : Word).extractLsb' 4 28 = ignored := by
  apply BitVec.eq_of_getLsbD_eq
  intro i hi
  have h : (ignored ++ code).getLsbD (4 + i) = _ := BitVec.getLsbD_append
  rw [BitVec.getLsbD_extractLsb']
  refine (congrArg (decide (i < 28) && ·) h).trans ?_
  simp [hi]
/-- Decoding a word given by its fields looks at the fields only. -/
theorem decode_ofFields (we : BitVec 1) (word : BitVec 6) (lane : BitVec 2) (data : Word) :
    decode (AccessWord.ofFields we word lane data) =
      if we = 1#1 then decodeWrite word lane data else decodeRead word lane := by
  simp [decode]

/-! ## Reads and writes -/

/-- The instructions that are read accesses. -/
def Instr.isRead : Instr → Bool
  | .rdCmd _ | .rdStatus _ | .rdIrqEn _ | .rdRoundsLo _ | .rdRoundsHi _ | .rdBudgetLo _ | .rdBudgetHi _ => true
  | .rdResultLo _ | .rdResultHi _ | .rdBuf _ _ | .rdSeed _ _ => true
  | .rdReserved0C _ | .rdReserved282C _ | .rdReserved303C _ | .rdReserved80FC _ => true
  | .cmdAck _ _ | .cmdTransform _ _ | .cmdCalibrate _ _ | .cmdClear _ _ => false
  | .cmdReserved47 _ _ _ | .cmdReserved8F _ _ _ => false
  | .wrStatus _ _ | .wrIrqEn _ _ | .wrRoundsLo _ _ | .wrRoundsHi _ _ | .wrBudgetLo _ _ | .wrBudgetHi _ _ => false
  | .wrResultLo _ _ | .wrResultHi _ _ | .wrBuf _ _ _ | .wrSeed _ _ _ => false
  | .wrReserved0C _ _ | .wrReserved282C _ _ | .wrReserved303C _ _ | .wrReserved80FC _ _ => false

theorem isRead_decodeRead (word : BitVec 6) (lane : BitVec 2) : (decodeRead word lane).isRead = true := by
  simp only [decodeRead, apply_ite Instr.isRead]
  simp [Instr.isRead]

theorem isRead_decodeWrite (word : BitVec 6) (lane : BitVec 2) (data : Word) :
    (decodeWrite word lane data).isRead = false := by
  simp only [decodeWrite, decodeCommand, apply_ite Instr.isRead]
  simp [Instr.isRead]

/-- A word is decoded to a read exactly when `we = 0` (R72). -/
theorem isRead_decode (w : AccessWord) : (decode w).isRead = decide (w.we = 0#1) := by
  have hwe : w.we = 0#1 ∨ w.we = 1#1 := by
    generalize w.we = b
    revert b
    decide
  rcases hwe with h | h
  · simp [decode, h, isRead_decodeRead]
  · simp [decode, h, isRead_decodeWrite]

/-- The ranges of the reserved rows are ranges of words: `off[1:0]` takes no part (R72). -/
theorem offIn282C_append (word : BitVec 6) (lane : BitVec 2) :
    offIn282C (word ++ lane) = (word.extractLsb' 1 5 == 0b00101#5) := by
  revert word lane
  decide

theorem offIn303C_append (word : BitVec 6) (lane : BitVec 2) :
    offIn303C (word ++ lane) = (word.extractLsb' 2 4 == 0b0011#4) := by
  revert word lane
  decide

/-- A command write is selected by its code alone (R73). -/
theorem decodeWrite_command (lane : BitVec 2) (data : Word) : decodeWrite 0#6 lane data = decodeCommand data lane := by
  simp [decodeWrite]

/-! ## Masks of the opcode table -/

/-- A mask works field by field. -/
theorem AccessWord.ofFields_and (we we' : BitVec 1) (word word' : BitVec 6) (lane lane' : BitVec 2) (data data' : Word) :
    AccessWord.ofFields we word lane data &&& AccessWord.ofFields we' word' lane' data' =
      AccessWord.ofFields (we &&& we') (word &&& word') (lane &&& lane') (data &&& data') := by
  apply BitVec.eq_of_getLsbD_eq
  intro i hi
  simp only [BitVec.getLsbD_and, AccessWord.getLsbD_ofFields]
  split
  · rfl
  · split
    · rfl
    · split <;> rfl

/-- Equal words have equal fields, and the other way round. -/
theorem AccessWord.ofFields_eq_iff (we we' : BitVec 1) (word word' : BitVec 6) (lane lane' : BitVec 2) (data data' : Word) :
    AccessWord.ofFields we word lane data = AccessWord.ofFields we' word' lane' data' ↔
      we = we' ∧ word = word' ∧ lane = lane' ∧ data = data' := by
  constructor
  · intro h
    exact ⟨by simpa using congrArg AccessWord.we h, by simpa using congrArg AccessWord.word h,
      by simpa using congrArg AccessWord.lane h, by simpa using congrArg AccessWord.data h⟩
  · rintro ⟨rfl, rfl, rfl, rfl⟩
    rfl

/-- What a row whose mask leaves `off[1:0]` out covers, field by field. -/
theorem OpcodeRow.covers_ofFields (we pw : BitVec 1) (word mword pword : BitVec 6) (lane : BitVec 2)
    (data mdata pdata : Word) :
    OpcodeRow.covers ⟨AccessWord.ofFields 1#1 mword 0#2 mdata, AccessWord.ofFields pw pword 0#2 pdata⟩
        (AccessWord.ofFields we word lane data) = true ↔
      we = pw ∧ word &&& mword = pword ∧ data &&& mdata = pdata := by
  have h1 : we &&& 1#1 = we := by revert we; decide
  simp [OpcodeRow.covers, AccessWord.ofFields_and, AccessWord.ofFields_eq_iff, h1]

end Sys2Proof
end

