-- ==== Sys2Proof/Laws/Operands.lean ====
section
/-! SUPPORT. The byte lanes: what one byte, word or block reads after another is written. -/

namespace Sys2Proof.Machine

theorem byteAt_getLsbD {w : Nat} (v : BitVec w) (i j : Nat) :
    (byteAt v i).getLsbD j = (decide (j < 8) && v.getLsbD (8 * i + j)) := by
  simp [byteAt]

/-- Two byte arrays with equal bytes are equal. -/
theorem eq_of_byteAt {n : Nat} {v w : BitVec (8 * n)} (h : ∀ i, i < n → byteAt v i = byteAt w i) : v = w := by
  apply BitVec.eq_of_getLsbD_eq
  intro j hj
  have hi : j / 8 < n := by omega
  have hb := congrArg (fun b => b.getLsbD (j % 8)) (h (j / 8) hi)
  simp only [byteAt_getLsbD] at hb
  have hmod : j % 8 < 8 := Nat.mod_lt _ (by omega)
  have hsum : 8 * (j / 8) + j % 8 = j := by omega
  simpa [hmod, hsum] using hb

/-- Writing one byte changes that byte and no other. -/
theorem byteAt_setByte {w : Nat} (v : BitVec w) (i j : Nat) (b : Byte) (hj : 8 * j + 8 ≤ w) :
    byteAt (setByte v i b) j = if j = i then b else byteAt v j := by
  apply BitVec.eq_of_getLsbD_eq
  intro l hl
  have hw : 8 * j + l < w := by omega
  have hones : ∀ n, (0xFF#8).getLsbD n = decide (n < 8) := by
    intro n
    by_cases h : n < 8
    · interval_cases n <;> rfl
    · simp [h, BitVec.getLsbD_of_ge _ _ (Nat.le_of_not_lt h)]
  simp only [byteAt_getLsbD, setByte, BitVec.getLsbD_or, BitVec.getLsbD_and, BitVec.getLsbD_not,
    BitVec.getLsbD_shiftLeft, BitVec.getLsbD_setWidth, hones]
  by_cases h : j = i
  · subst h
    simp only [hl, hw, show ¬ (8 * j + l < 8 * j) by omega, show 8 * j + l - 8 * j = l by omega,
      show l < w by omega, if_true, decide_true, decide_false, Bool.true_and, Bool.not_false, Bool.and_true,
      Bool.not_true, Bool.and_false, Bool.false_or]
  · by_cases hlt : 8 * j + l < 8 * i
    · simp only [h, if_false, byteAt_getLsbD, hl, hw, hlt, decide_true, Bool.true_and, Bool.not_true, Bool.false_and,
        Bool.and_false, Bool.not_false, Bool.and_true, Bool.or_false]
    · have h3 : 8 ≤ 8 * j + l - 8 * i := by omega
      simp only [h, if_false, byteAt_getLsbD, BitVec.getLsbD_of_ge b _ h3, show ¬ (8 * j + l - 8 * i < 8) by omega,
        decide_false, Bool.and_false, Bool.not_false, Bool.and_true, Bool.or_false, hw, decide_true]

/-- A word written lane by lane: its four bytes are the data's, every other byte stays (R53, R54, R118, R120). -/
theorem byteAt_setWord (v : Bytes32) (k : BitVec 3) (data : Word) (i : Nat) (hi : i < 32) :
    byteAt (setWord v k data) i = if i / 4 = k.toNat then byteAt data (i % 4) else byteAt v i := by
  have hk : k.toNat < 8 := k.isLt
  have hw : 8 * i + 8 ≤ 256 := by omega
  simp only [setWord, byteAt_setByte _ _ _ _ hw]
  by_cases h : i / 4 = k.toNat
  · have hcases : i = 4 * k.toNat ∨ i = 4 * k.toNat + 1 ∨ i = 4 * k.toNat + 2 ∨ i = 4 * k.toNat + 3 := by omega
    rcases hcases with rfl | rfl | rfl | rfl
    · simp [show 4 * k.toNat % 4 = 0 by omega]
    · simp [show (4 * k.toNat + 1) / 4 = k.toNat by omega, show (4 * k.toNat + 1) % 4 = 1 by omega]
    · simp [show (4 * k.toNat + 2) / 4 = k.toNat by omega, show (4 * k.toNat + 2) % 4 = 2 by omega]
    · simp [show (4 * k.toNat + 3) / 4 = k.toNat by omega, show (4 * k.toNat + 3) % 4 = 3 by omega]
  · simp [h, show i ≠ 4 * k.toNat by omega, show i ≠ 4 * k.toNat + 1 by omega,
      show i ≠ 4 * k.toNat + 2 by omega, show i ≠ 4 * k.toNat + 3 by omega]

/-- The bytes of a word of the array, low byte first (R53). -/
theorem byteAt_wordAt (v : Bytes32) (k : BitVec 3) (j : Nat) (hj : j < 4) :
    byteAt (wordAt v k) j = byteAt v (4 * k.toNat + j) := by
  apply BitVec.eq_of_getLsbD_eq
  intro l hl
  have hcases : j = 0 ∨ j = 1 ∨ j = 2 ∨ j = 3 := by omega
  rcases hcases with rfl | rfl | rfl | rfl <;>
    simp only [byteAt_getLsbD, wordAt, BitVec.getLsbD_append, hl, decide_true, Bool.true_and]
  · simp [hl]
  · simp [hl, show ¬ (8 + l < 8) by omega]
  · simp [hl, show ¬ (16 + l < 8) by omega, show ¬ (16 + l - 8 < 8) by omega, show 16 + l - 8 - 8 = l by omega]
  · simp [hl, show ¬ (24 + l < 8) by omega, show ¬ (24 + l - 8 < 8) by omega, show ¬ (24 + l - 8 - 8 < 8) by omega,
      show 24 + l - 8 - 8 - 8 = l by omega]

/-- Two words with equal bytes are equal. -/
theorem word_eq_of_byteAt {v w : Word} (h : ∀ j, j < 4 → byteAt v j = byteAt w j) : v = w :=
  eq_of_byteAt (n := 4) h

/-- A word reads back what was written to it, and another word reads as before. -/
theorem wordAt_setWord (v : Bytes32) (k l : BitVec 3) (data : Word) :
    wordAt (setWord v k data) l = if l = k then data else wordAt v l := by
  apply word_eq_of_byteAt
  intro j hj
  have hl : l.toNat < 8 := l.isLt
  rw [byteAt_wordAt _ _ _ hj, byteAt_setWord _ _ _ _ (by omega)]
  by_cases h : l = k
  · subst h
    simp [show (4 * l.toNat + j) / 4 = l.toNat by omega, show (4 * l.toNat + j) % 4 = j by omega]
  · have hne : l.toNat ≠ k.toNat := fun e => h (BitVec.eq_of_toNat_eq e)
    simp [h, show (4 * l.toNat + j) / 4 = l.toNat by omega, hne, byteAt_wordAt _ _ _ hj]

@[simp] theorem wordAt_zero (k : BitVec 3) : wordAt 0#256 k = 0#32 := by
  apply word_eq_of_byteAt
  intro j hj
  rw [byteAt_wordAt _ _ _ hj]
  simp [byteAt]

/-- Setting a mask bit sets that bit and no other (R22, R23). -/
theorem getLsbD_setMaskBit (mask : BitVec 8) (k : BitVec 3) (j : Nat) (hj : j < 8) :
    (setMaskBit mask k).getLsbD j = (decide (j = k.toNat) || mask.getLsbD j) := by
  revert mask k
  interval_cases j <;> decide +revert

/-! ## The two halves (R20) -/

/-- Bit by bit, block A holds the low half. -/
theorem getLsbD_joinBlocks (a b : Bytes16) (i : Nat) :
    (joinBlocks a b).getLsbD i = if i < 128 then a.getLsbD i else b.getLsbD (i - 128) := by
  have h : (b ++ a).getLsbD i = _ := BitVec.getLsbD_append
  exact h

@[simp] theorem blockA_joinBlocks (a b : Bytes16) : blockA (joinBlocks a b) = a := by
  apply BitVec.eq_of_getLsbD_eq
  intro i hi
  simp only [blockA, BitVec.getLsbD_extractLsb', getLsbD_joinBlocks]
  simp [hi]

@[simp] theorem blockB_joinBlocks (a b : Bytes16) : blockB (joinBlocks a b) = b := by
  apply BitVec.eq_of_getLsbD_eq
  intro i hi
  simp only [blockB, BitVec.getLsbD_extractLsb', getLsbD_joinBlocks]
  simp [hi]

@[simp] theorem joinBlocks_blocks (v : Bytes32) : joinBlocks (blockA v) (blockB v) = v := by
  apply BitVec.eq_of_getLsbD_eq
  intro i hi
  simp only [blockA, blockB, BitVec.getLsbD_extractLsb', getLsbD_joinBlocks]
  split
  · simp [*]
  · simp [show i - 128 < 128 by omega, show 128 + (i - 128) = i by omega]

@[simp] theorem blockA_setBlockA (v : Bytes32) (o : Bytes16) : blockA (setBlockA v o) = o := by simp [setBlockA]
@[simp] theorem blockB_setBlockA (v : Bytes32) (o : Bytes16) : blockB (setBlockA v o) = blockB v := by simp [setBlockA]
@[simp] theorem blockA_setBlockB (v : Bytes32) (o : Bytes16) : blockA (setBlockB v o) = blockA v := by simp [setBlockB]
@[simp] theorem blockB_setBlockB (v : Bytes32) (o : Bytes16) : blockB (setBlockB v o) = o := by simp [setBlockB]

/-- Block A is the bytes 0 to 15. -/
theorem byteAt_blockA (v : Bytes32) (i : Nat) (hi : i < 16) : byteAt (blockA v) i = byteAt v i := by
  apply BitVec.eq_of_getLsbD_eq
  intro j hj
  simp only [byteAt_getLsbD, blockA, BitVec.getLsbD_extractLsb', Nat.zero_add]
  simp [show 8 * i + j < 128 by omega]

/-- Block B is the bytes 16 to 31. -/
theorem byteAt_blockB (v : Bytes32) (i : Nat) (hi : i < 16) : byteAt (blockB v) i = byteAt v (16 + i) := by
  apply BitVec.eq_of_getLsbD_eq
  intro j hj
  simp only [byteAt_getLsbD, blockB, BitVec.getLsbD_extractLsb', show 128 + (8 * i + j) = 8 * (16 + i) + j by omega]
  simp [show 8 * i + j < 128 by omega]

/-! ## The two words of a 64-bit register (R55) -/

/-! Bytes of the buffer after one block was replaced. -/

theorem byteAt_setBlockA_own (v : Bytes32) (o : Bytes16) (i : Nat) (hi : i < 16) :
    byteAt (setBlockA v o) i = byteAt o i := by
  rw [← byteAt_blockA _ _ hi]; simp
theorem byteAt_setBlockA_other (v : Bytes32) (o : Bytes16) (i : Nat) (hi : i < 16) :
    byteAt (setBlockA v o) (16 + i) = byteAt v (16 + i) := by
  rw [← byteAt_blockB _ _ hi, ← byteAt_blockB _ _ hi]; simp
theorem byteAt_setBlockB_other (v : Bytes32) (o : Bytes16) (i : Nat) (hi : i < 16) :
    byteAt (setBlockB v o) i = byteAt v i := by
  rw [← byteAt_blockA _ _ hi, ← byteAt_blockA _ _ hi]; simp
theorem byteAt_setBlockB_own (v : Bytes32) (o : Bytes16) (i : Nat) (hi : i < 16) :
    byteAt (setBlockB v o) (16 + i) = byteAt o i := by
  rw [← byteAt_blockB _ _ hi]; simp
/-- A buffer is known by the bytes of its two blocks. -/
theorem eq_joinBlocks_of_byteAt {b : Bytes32} {x y : Bytes16} (hx : ∀ i, i < 16 → byteAt b i = byteAt x i)
    (hy : ∀ i, i < 16 → byteAt b (16 + i) = byteAt y i) : b = joinBlocks x y := by
  have ha : blockA b = x := eq_of_byteAt (n := 16) fun i hi => by rw [byteAt_blockA _ _ hi, hx i hi]
  have hb : blockB b = y := eq_of_byteAt (n := 16) fun i hi => by rw [byteAt_blockB _ _ hi, hy i hi]
  rw [← joinBlocks_blocks b, ha, hb]

theorem loWord_toNat (v : Count) : (loWord v).toNat = v.toNat % 2 ^ 32 := by
  simp [loWord]

theorem hiWord_toNat (v : Count) : (hiWord v).toNat = v.toNat / 2 ^ 32 := by
  have := v.isLt
  simp only [hiWord, BitVec.extractLsb'_toNat, Nat.shiftRight_eq_div_pow]
  omega

theorem setLo_toNat (v : Count) (d : Word) : (setLo v d).toNat = v.toNat / 2 ^ 32 * 2 ^ 32 + d.toNat := by
  have h := hiWord_toNat v
  have hd := d.isLt
  simp only [setLo, BitVec.toNat_append, h]
  rw [← Nat.shiftLeft_add_eq_or_of_lt hd, Nat.shiftLeft_eq]

theorem setHi_toNat (v : Count) (d : Word) : (setHi v d).toNat = d.toNat * 2 ^ 32 + v.toNat % 2 ^ 32 := by
  have h := loWord_toNat v
  have hv : (loWord v).toNat < 2 ^ 32 := (loWord v).isLt
  simp only [setHi, BitVec.toNat_append]
  rw [← Nat.shiftLeft_add_eq_or_of_lt hv, Nat.shiftLeft_eq, h]

@[simp] theorem loWord_setLo (v : Count) (d : Word) : loWord (setLo v d) = d := by
  apply BitVec.eq_of_toNat_eq
  have := d.isLt
  rw [loWord_toNat, setLo_toNat]
  omega

@[simp] theorem hiWord_setLo (v : Count) (d : Word) : hiWord (setLo v d) = hiWord v := by
  apply BitVec.eq_of_toNat_eq
  have := d.isLt
  rw [hiWord_toNat, setLo_toNat, hiWord_toNat]
  omega

@[simp] theorem hiWord_setHi (v : Count) (d : Word) : hiWord (setHi v d) = d := by
  apply BitVec.eq_of_toNat_eq
  have := d.isLt
  rw [hiWord_toNat, setHi_toNat]
  omega

@[simp] theorem loWord_setHi (v : Count) (d : Word) : loWord (setHi v d) = loWord v := by
  apply BitVec.eq_of_toNat_eq
  have := d.isLt
  rw [loWord_toNat, setHi_toNat, loWord_toNat]
  omega

end Sys2Proof.Machine
end

