-- ==== Sys2Proof/Laws/PerInstr.lean ====
section
/-! SUPPORT. Per instruction: the encoding of a well-formed instruction lies in its row of spec/opcode_table.json. -/

namespace Sys2Proof.Laws.EncodingRow

/-- The encoding of `i` has the bits its row of the opcode table fixes. -/
def Statement (i : Instr) : Prop := i.wellFormed = true → i.row.covers (encode i) = true

/-- A mask on a command word's code. -/
theorem command_and (ignored : BitVec 28) (code m : BitVec 4) :
    (ignored ++ code : Word) &&& (0#28 ++ m : Word) = (0#28 ++ (code &&& m) : Word) := by
  apply BitVec.eq_of_getLsbD_eq
  intro i hi
  have h1 : (ignored ++ code).getLsbD i = _ := BitVec.getLsbD_append
  have h2 : (0#28 ++ m).getLsbD i = _ := BitVec.getLsbD_append
  have h3 : (0#28 ++ (code &&& m)).getLsbD i = _ := BitVec.getLsbD_append
  refine (BitVec.getLsbD_and ..).trans ((congrArg₂ and h1 h2).trans (Eq.trans ?_ h3.symm))
  by_cases h : i < 4 <;> simp [h]

/-- The row of a command. -/
theorem command_row (code m p : BitVec 4) (ignored : BitVec 28) (lane : BitVec 2) (h : code &&& m = p) :
    OpcodeRow.covers ⟨AccessWord.ofFields 1#1 0x3F#6 0#2 (0#28 ++ m), AccessWord.ofFields 1#1 0#6 0#2 (0#28 ++ p)⟩
      (encodeCommand code ignored lane) = true :=
  (OpcodeRow.covers_ofFields ..).2 ⟨rfl, rfl, by rw [command_and, h]⟩

/-- The row of a read. -/
theorem read_row (word m p : BitVec 6) (lane : BitVec 2) (h : word &&& m = p) :
    OpcodeRow.covers ⟨AccessWord.ofFields 1#1 m 0#2 0#32, AccessWord.ofFields 0#1 p 0#2 0#32⟩
      (encodeRead word lane) = true :=
  (OpcodeRow.covers_ofFields ..).2 ⟨rfl, h, rfl⟩

/-- The row of a write. -/
theorem write_row (word m p : BitVec 6) (lane : BitVec 2) (data : Word) (h : word &&& m = p) :
    OpcodeRow.covers ⟨AccessWord.ofFields 1#1 m 0#2 0#32, AccessWord.ofFields 1#1 p 0#2 0#32⟩
      (encodeWrite word lane data) = true :=
  (OpcodeRow.covers_ofFields ..).2 ⟨rfl, h, by simp⟩

/-- The index of a buffer or seed word takes no part in the row's bits. -/
theorem index_and (p k : BitVec 3) : (p ++ k : BitVec 6) &&& 0x38#6 = p ++ 0#3 := by
  revert p k
  decide

theorem code_and_of_codeIn47 (code : BitVec 4) (h : codeIn47 code = true) : code &&& 0xC#4 = 0x4#4 := by
  revert code
  decide

theorem code_and_of_codeIn8F (code : BitVec 4) (h : codeIn8F code = true) : code &&& 0x8#4 = 0x8#4 := by
  revert code
  decide

theorem word_and_of_offIn282C (off : BitVec 8) (h : offIn282C off = true) : off.extractLsb' 2 6 &&& 0x3E#6 = 0x0A#6 := by
  revert off
  decide

theorem word_and_of_offIn303C (off : BitVec 8) (h : offIn303C off = true) : off.extractLsb' 2 6 &&& 0x3C#6 = 0x0C#6 := by
  revert off
  decide

theorem word_and_of_offIn80FC (off : BitVec 8) (h : offIn80FC off = true) : off.extractLsb' 2 6 &&& 0x20#6 = 0x20#6 := by
  revert off
  decide

theorem cmdAck (ignored : BitVec 28) (lane : BitVec 2) : Statement (.cmdAck ignored lane) :=
  fun _ => command_row 0x0#4 0xF#4 0x0#4 ignored lane rfl

theorem cmdTransform (ignored : BitVec 28) (lane : BitVec 2) : Statement (.cmdTransform ignored lane) :=
  fun _ => command_row 0x1#4 0xF#4 0x1#4 ignored lane rfl

theorem cmdCalibrate (ignored : BitVec 28) (lane : BitVec 2) : Statement (.cmdCalibrate ignored lane) :=
  fun _ => command_row 0x2#4 0xF#4 0x2#4 ignored lane rfl

theorem cmdClear (ignored : BitVec 28) (lane : BitVec 2) : Statement (.cmdClear ignored lane) :=
  fun _ => command_row 0x3#4 0xF#4 0x3#4 ignored lane rfl

theorem cmdReserved47 (code : BitVec 4) (ignored : BitVec 28) (lane : BitVec 2) : Statement (.cmdReserved47 code ignored lane) :=
  fun h => command_row code 0xC#4 0x4#4 ignored lane (code_and_of_codeIn47 code h)

theorem cmdReserved8F (code : BitVec 4) (ignored : BitVec 28) (lane : BitVec 2) : Statement (.cmdReserved8F code ignored lane) :=
  fun h => command_row code 0x8#4 0x8#4 ignored lane (code_and_of_codeIn8F code h)

theorem rdCmd (lane : BitVec 2) : Statement (.rdCmd lane) :=
  fun _ => read_row 0x00#6 0x3F#6 0x00#6 lane rfl

theorem rdStatus (lane : BitVec 2) : Statement (.rdStatus lane) :=
  fun _ => read_row 0x01#6 0x3F#6 0x01#6 lane rfl

theorem wrStatus (data : Word) (lane : BitVec 2) : Statement (.wrStatus data lane) :=
  fun _ => write_row 0x01#6 0x3F#6 0x01#6 lane data rfl

theorem rdIrqEn (lane : BitVec 2) : Statement (.rdIrqEn lane) :=
  fun _ => read_row 0x02#6 0x3F#6 0x02#6 lane rfl

theorem wrIrqEn (data : Word) (lane : BitVec 2) : Statement (.wrIrqEn data lane) :=
  fun _ => write_row 0x02#6 0x3F#6 0x02#6 lane data rfl

theorem rdRoundsLo (lane : BitVec 2) : Statement (.rdRoundsLo lane) :=
  fun _ => read_row 0x04#6 0x3F#6 0x04#6 lane rfl

theorem wrRoundsLo (data : Word) (lane : BitVec 2) : Statement (.wrRoundsLo data lane) :=
  fun _ => write_row 0x04#6 0x3F#6 0x04#6 lane data rfl

theorem rdRoundsHi (lane : BitVec 2) : Statement (.rdRoundsHi lane) :=
  fun _ => read_row 0x05#6 0x3F#6 0x05#6 lane rfl

theorem wrRoundsHi (data : Word) (lane : BitVec 2) : Statement (.wrRoundsHi data lane) :=
  fun _ => write_row 0x05#6 0x3F#6 0x05#6 lane data rfl

theorem rdBudgetLo (lane : BitVec 2) : Statement (.rdBudgetLo lane) :=
  fun _ => read_row 0x06#6 0x3F#6 0x06#6 lane rfl

theorem wrBudgetLo (data : Word) (lane : BitVec 2) : Statement (.wrBudgetLo data lane) :=
  fun _ => write_row 0x06#6 0x3F#6 0x06#6 lane data rfl

theorem rdBudgetHi (lane : BitVec 2) : Statement (.rdBudgetHi lane) :=
  fun _ => read_row 0x07#6 0x3F#6 0x07#6 lane rfl

theorem wrBudgetHi (data : Word) (lane : BitVec 2) : Statement (.wrBudgetHi data lane) :=
  fun _ => write_row 0x07#6 0x3F#6 0x07#6 lane data rfl

theorem rdResultLo (lane : BitVec 2) : Statement (.rdResultLo lane) :=
  fun _ => read_row 0x08#6 0x3F#6 0x08#6 lane rfl

theorem wrResultLo (data : Word) (lane : BitVec 2) : Statement (.wrResultLo data lane) :=
  fun _ => write_row 0x08#6 0x3F#6 0x08#6 lane data rfl

theorem rdResultHi (lane : BitVec 2) : Statement (.rdResultHi lane) :=
  fun _ => read_row 0x09#6 0x3F#6 0x09#6 lane rfl

theorem wrResultHi (data : Word) (lane : BitVec 2) : Statement (.wrResultHi data lane) :=
  fun _ => write_row 0x09#6 0x3F#6 0x09#6 lane data rfl

theorem rdBuf (k : BitVec 3) (lane : BitVec 2) : Statement (.rdBuf k lane) :=
  fun _ => read_row _ 0x38#6 (0b010#3 ++ 0#3) lane (index_and 0b010#3 k)

theorem wrBuf (k : BitVec 3) (data : Word) (lane : BitVec 2) : Statement (.wrBuf k data lane) :=
  fun _ => write_row _ 0x38#6 (0b010#3 ++ 0#3) lane data (index_and 0b010#3 k)

theorem rdSeed (k : BitVec 3) (lane : BitVec 2) : Statement (.rdSeed k lane) :=
  fun _ => read_row _ 0x38#6 (0b011#3 ++ 0#3) lane (index_and 0b011#3 k)

theorem wrSeed (k : BitVec 3) (data : Word) (lane : BitVec 2) : Statement (.wrSeed k data lane) :=
  fun _ => write_row _ 0x38#6 (0b011#3 ++ 0#3) lane data (index_and 0b011#3 k)

theorem rdReserved0C (lane : BitVec 2) : Statement (.rdReserved0C lane) :=
  fun _ => read_row 0x03#6 0x3F#6 0x03#6 lane rfl

theorem wrReserved0C (data : Word) (lane : BitVec 2) : Statement (.wrReserved0C data lane) :=
  fun _ => write_row 0x03#6 0x3F#6 0x03#6 lane data rfl

theorem rdReserved282C (off : BitVec 8) : Statement (.rdReserved282C off) :=
  fun h => read_row _ 0x3e#6 0x0a#6 _ (word_and_of_offIn282C off h)

theorem wrReserved282C (off : BitVec 8) (data : Word) : Statement (.wrReserved282C off data) :=
  fun h => write_row _ 0x3e#6 0x0a#6 _ data (word_and_of_offIn282C off h)

theorem rdReserved303C (off : BitVec 8) : Statement (.rdReserved303C off) :=
  fun h => read_row _ 0x3c#6 0x0c#6 _ (word_and_of_offIn303C off h)

theorem wrReserved303C (off : BitVec 8) (data : Word) : Statement (.wrReserved303C off data) :=
  fun h => write_row _ 0x3c#6 0x0c#6 _ data (word_and_of_offIn303C off h)

theorem rdReserved80FC (off : BitVec 8) : Statement (.rdReserved80FC off) :=
  fun h => read_row _ 0x20#6 0x20#6 _ (word_and_of_offIn80FC off h)

theorem wrReserved80FC (off : BitVec 8) (data : Word) : Statement (.wrReserved80FC off data) :=
  fun h => write_row _ 0x20#6 0x20#6 _ data (word_and_of_offIn80FC off h)

end Sys2Proof.Laws.EncodingRow
end

