-- ==== Sys2Proof/Laws/Run.lean ====
section
/-! SUPPORT. Induction along a run of one command, packaged once; how runs are cut, joined and extended by a cycle. -/

namespace Sys2Proof.Machine

/-- What holds of the run so far (the sequencer state of the last cycle, the transactions and the cycles so far, the
present state) at the run's start and is kept by every cycle, holds at its end. -/
theorem busyRun_forward {env : Fsm → State → Prop} (P : Fsm → List PortEvent → Nat → State → Prop)
    (keep : ∀ p before m s u, P p before m s → env p s → s.fsm ≠ .idle → step s = .next u →
      P s.fsm (before ++ portEvents (cycleInput s) s) (m + 1) u)
    {p : Fsm} {s t : State} {events : List PortEvent} {n : Nat} (run : BusyRun env p s events n t) :
    ∀ before m, P p before m s → ∃ q, P q (before ++ events) (m + n) t := by
  induction run with
  | stop p s => intro before m h; exact ⟨p, by simpa using h⟩
  | cycle p s u t events n henv hbusy hstep _ ih =>
    intro before m h
    obtain ⟨q, hq⟩ := ih _ _ (keep p before m s u h henv hbusy hstep)
    exact ⟨q, by simpa [Nat.add_comm, Nat.add_left_comm, Nat.add_assoc] using hq⟩

/-! ## A cycle looks no further than its own inputs -/

/-- The sequencer's step neither reads nor writes the inputs still to come. -/
theorem sequencerStep_withScript (f : Fsm) (inp : CycleInput) (s : State) (l : List CycleInput) :
    sequencerStep f inp { s with script := l } = { sequencerStep f inp s with script := l } := by
  cases f
  case idle => rfl
  case keysetup => simp only [sequencerStep, stepKeysetup]; split <;> rfl
  case t0 => simp only [sequencerStep, stepT0]; split <;> rfl
  case batchCheck => simp only [sequencerStep, stepBatchCheck]; split <;> rfl
  case encA => simp only [sequencerStep, stepEncA]; split <;> rfl
  case encB =>
    simp only [sequencerStep, stepEncB, roundComplete, roundCompleteTransform, roundCompleteCalibrate]
    split
    · split
      · rfl
      · split <;> rfl
    · rfl
  case sample => simp only [sequencerStep, stepSample]; split <;> rfl
  case finish => rfl
  case fail => rfl

/-- A host access of a busy block neither reads nor writes the inputs still to come. -/
theorem performAccess_withScript (access : Option AccessWord) {s : State} (h : s.busy = true) (l : List CycleInput) :
    ∃ v : State, performAccess access s = .next v ∧ performAccess access { s with script := l } = .next { v with script := l } := by
  cases access with
  | none => exact ⟨s, rfl, rfl⟩
  | some w =>
    have h' : State.busy { s with script := l } = true := h
    simp only [performAccess]
    cases decode w <;>
      first
        | exact ⟨_, rfl, rfl⟩
        | exact ⟨_, congrArg Host.Outcome.next (busWrite_of_busy h), congrArg Host.Outcome.next (busWrite_of_busy h')⟩

/-- The cycle of a busy block without reset ends alike whatever inputs follow its own, which stay listed. -/
theorem step_withScript {s : State} (hb : s.fsm ≠ .idle) {inp : CycleInput} (hr : inp.rst = false)
    (l l' : List CycleInput) :
    ∃ u : State, step { s with script := inp :: l } = .next { u with script := l } ∧
      step { s with script := inp :: l' } = .next { u with script := l' } := by
  have key : ∀ r, step { s with script := inp :: r } =
      match performAccess inp.access { beginCycle s with script := r } with
      | .next v => .next (sequencerStep s.fsm inp v)
      | .fault r => .fault r
      | .refused r => .refused r := fun r => by
    rw [step_of_script (s := { s with script := inp :: r }) rfl, hr]; rfl
  have hb' : (beginCycle s).busy = true := (busy_iff s).2 hb
  obtain ⟨v, _, hv⟩ := performAccess_withScript inp.access hb' l
  obtain ⟨w, hw, hv'⟩ := performAccess_withScript inp.access hb' l'
  have e : w = v := by simp_all
  subst e
  exact ⟨sequencerStep s.fsm inp w, by rw [key, hv, ← sequencerStep_withScript], by rw [key, hv', ← sequencerStep_withScript]⟩

/-! ## Cutting and joining runs -/

/-- Two runs join. -/
theorem busyRun_append {env : Fsm → State → Prop} {p : Fsm} {s u : State} {es : List PortEvent} {a : Nat}
    (run : BusyRun env p s es a u) {es' : List PortEvent} {b : Nat} {t : State}
    (more : ∀ q, BusyRun env q u es' b t) : BusyRun env p s (es ++ es') (a + b) t := by
  induction run with
  | stop p s => simpa using more p
  | cycle p s u' u events n henv hbusy hstep _ ih =>
    rw [List.append_assoc, Nat.add_right_comm]
    exact .cycle p s u' t _ _ henv hbusy hstep (ih more)

/-- A run is cut after any of its cycles. -/
theorem busyRun_split {env : Fsm → State → Prop} : ∀ {a b : Nat} {p : Fsm} {s t : State} {es : List PortEvent},
    BusyRun env p s es (a + b) t →
    ∃ (q : Fsm) (u : State) (e₁ e₂ : List PortEvent), BusyRun env p s e₁ a u ∧ BusyRun env q u e₂ b t ∧ es = e₁ ++ e₂
  | 0, b, p, s, t, es, run => ⟨p, s, [], es, .stop p s, by simpa using run, rfl⟩
  | a + 1, b, p, s, t, es, run => by
    rw [Nat.add_right_comm] at run
    cases run with
    | cycle _ _ u _ events _ henv hbusy hstep rest =>
      obtain ⟨q, v, e₁, e₂, h₁, h₂, rfl⟩ := busyRun_split rest
      exact ⟨q, v, _, e₂, .cycle p s u v e₁ a henv hbusy hstep h₁, h₂, by simp⟩

/-- A run is determined by its start and its length. -/
theorem busyRun_deterministic {env env' : Fsm → State → Prop} {p p' : Fsm} {s t : State} {es : List PortEvent} {n : Nat}
    (run : BusyRun env p s es n t) : ∀ {es' : List PortEvent} {t' : State}, BusyRun env' p' s es' n t' → es' = es ∧ t' = t := by
  induction run generalizing p' with
  | stop p s => intro es' t' run'; cases run'; exact ⟨rfl, rfl⟩
  | cycle p s u t events n _ _ hstep _ ih =>
    intro es' t' run'
    cases run' with
    | cycle _ _ u' _ events' _ _ _ hstep' rest' =>
      rw [hstep] at hstep'
      injection hstep' with hu
      subst hu
      obtain ⟨rfl, rfl⟩ := ih rest'
      exact ⟨rfl, rfl⟩

/-- A run that uses up its list of inputs goes the same way when more inputs follow, and those stay listed. -/
theorem busyRun_withScript {l : List CycleInput} (r : List CycleInput) : ∀ {p : Fsm} {s t : State} {es : List PortEvent},
    BusyRun noReset p { s with script := l } es l.length t →
    t.script = [] ∧ BusyRun noReset p { s with script := l ++ r } es l.length { t with script := r } := by
  induction l with
  | nil =>
    intro p s t es run
    cases run
    exact ⟨rfl, .stop p _⟩
  | cons inp l ih =>
    intro p s t es run
    cases run with
    | cycle _ _ u _ events _ henv hbusy hstep rest =>
      have hr : inp.rst = false := henv
      obtain ⟨v, hv, hv'⟩ := step_withScript (s := s) hbusy hr l (l ++ r)
      rw [hv] at hstep
      injection hstep with hu
      subst hu
      obtain ⟨hs, run'⟩ := ih rest
      exact ⟨hs, .cycle p _ _ _ events _ henv hbusy hv' run'⟩

/-- A run through the first of its inputs goes the same way when the others are not listed. -/
theorem busyRun_cutScript {l r : List CycleInput} : ∀ {p : Fsm} {s t : State} {es : List PortEvent},
    BusyRun noReset p { s with script := l ++ r } es l.length t →
    ∃ u : State, BusyRun noReset p { s with script := l } es l.length u ∧ t = { u with script := r } := by
  induction l with
  | nil =>
    intro p s t es run
    cases run
    exact ⟨_, .stop p _, rfl⟩
  | cons inp l ih =>
    intro p s t es run
    cases run with
    | cycle _ _ u _ events _ henv hbusy hstep rest =>
      have hr : inp.rst = false := henv
      obtain ⟨v, hv, hv'⟩ := step_withScript (s := s) hbusy hr l (l ++ r)
      rw [List.cons_append, hv'] at hstep
      injection hstep with hu
      subst hu
      obtain ⟨w, run', rfl⟩ := ih rest
      exact ⟨w, .cycle p _ _ _ events _ henv hbusy hv run', rfl⟩

/-! ## The run of a command in an environment -/

section
variable {env : Environment} {s : State}

theorem commandRun_zero : CommandRun env s [] 0 { s with script := [] } := .stop _ _

/-- The inputs are used up. -/
theorem commandRun_script {es : List PortEvent} {n : Nat} {t : State} (run : CommandRun env s es n t) : t.script = [] :=
  (busyRun_withScript (l := (List.range n).map env) [] (by simpa [CommandRun] using run)).1

/-- One more cycle: the busy block steps on the next inputs of the environment. -/
theorem commandRun_succ {es : List PortEvent} {n : Nat} {t u : State} (run : CommandRun env s es n t)
    (hb : t.fsm ≠ .idle) (hr : (env n).rst = false) (hstep : step { t with script := [env n] } = .next u) :
    CommandRun env s (es ++ portEvents (env n) t) (n + 1) u := by
  have h := (busyRun_withScript (l := (List.range n).map env) [env n] (by simpa [CommandRun] using run)).2
  simp only [List.length_map, List.length_range] at h
  unfold CommandRun
  rw [List.range_succ, List.map_append]
  refine busyRun_append h fun q => ?_
  have h := BusyRun.cycle (env := noReset) q { t with script := [env n] } u u [] 0 hr hb hstep (.stop _ _)
  rw [List.append_nil] at h
  exact h

/-- The run to a later cycle passes through the state of an earlier one. -/
theorem commandRun_prefix {es : List PortEvent} {n m : Nat} {t : State} (run : CommandRun env s es (n + m) t) :
    ∃ (q : Fsm) (e₁ e₂ : List PortEvent) (u : State), CommandRun env s e₁ n u ∧ es = e₁ ++ e₂ ∧
      BusyRun noReset q { u with script := (List.range m).map fun k => env (n + k) } e₂ m t := by
  obtain ⟨q, u, e₁, e₂, h₁, h₂, rfl⟩ := busyRun_split run
  have hl : (List.range (n + m)).map env = (List.range n).map env ++ (List.range m).map fun k => env (n + k) := by
    rw [List.range_add, List.map_append, List.map_map]; rfl
  obtain ⟨u', h', rfl⟩ := busyRun_cutScript (l := (List.range n).map env) (s := s) (by simpa [hl] using h₁)
  exact ⟨q, e₁, e₂, u', by simpa [CommandRun] using h', rfl, h₂⟩

/-- The state of a cycle is determined. -/
theorem commandRun_deterministic {es es' : List PortEvent} {n : Nat} {t t' : State} (run : CommandRun env s es n t)
    (run' : CommandRun env s es' n t') : es' = es ∧ t' = t := busyRun_deterministic run run'

end

end Sys2Proof.Machine
end

