-- ==== Sys2Proof/Machine/HostProgram.lean ====
section
/-! DEFINITION. The assembler's notation for host programs: machine lines, register names and pseudo-instructions
(spec/30_encoding.md R77, R78; spec/20_memory.md R51). A program is a list of access words; the machine never sees the
notation. -/

namespace Sys2Proof.Machine

/-- A machine line: `wr <off>, <value>` or `rd <off>` (R77). -/
inductive Line where
  | wr (off : BitVec 8) (value : Word)
  | rd (off : BitVec 8)
  deriving DecidableEq, Repr

/-- The access word of a line: `{we, off, data}` (R77). -/
def lineWord : Line → AccessWord
  | .wr off value => AccessWord.ofFields 1#1 (off.extractLsb' 2 6) (off.extractLsb' 0 2) value
  | .rd off => AccessWord.ofFields 0#1 (off.extractLsb' 2 6) (off.extractLsb' 0 2) 0#32

/-! Register names (R51). -/

def offCmd : BitVec 8 := 0x00#8
def offStatus : BitVec 8 := 0x04#8
def offIrqEn : BitVec 8 := 0x08#8
def offRoundsLo : BitVec 8 := 0x10#8
def offRoundsHi : BitVec 8 := 0x14#8
def offBudgetLo : BitVec 8 := 0x18#8
def offBudgetHi : BitVec 8 := 0x1C#8
def offResultLo : BitVec 8 := 0x20#8
def offResultHi : BitVec 8 := 0x24#8
/-- BUFk, `0x40 + 4k`. -/
def offBuf (k : BitVec 3) : BitVec 8 := 0b010#3 ++ k ++ 0b00#2
/-- SEEDk, `0x60 + 4k`. -/
def offSeed (k : BitVec 3) : BitVec 8 := 0b011#3 ++ k ++ 0b00#2

/-- The platform address of a register offset (R50). -/
def platformAddress (off : BitVec 8) : Nat := Config.regBase + off.toNat

/-- The 64-bit registers a pseudo-instruction can name; RESULT is read-only, so `wr64` takes the first two (R78). -/
inductive Reg64 where
  | rounds | budget | result
  deriving DecidableEq, Repr

def Reg64.lo : Reg64 → BitVec 8
  | .rounds => offRoundsLo
  | .budget => offBudgetLo
  | .result => offResultLo

def Reg64.hi : Reg64 → BitVec 8
  | .rounds => offRoundsHi
  | .budget => offBudgetHi
  | .result => offResultHi

/-- The pseudo-instructions (R78). `poll` and `wait` carry the number of their extra reads, which the run decides (log
entry 15). -/
inductive Pseudo where
  | ack | transform | calibrate | clear
  | wr64 (x : Reg64) (v : Count)
  | rd64 (x : Reg64)
  | wrbuf (bytes : Bytes32)
  | wrseed (bytes : Bytes32)
  | rdbuf
  | poll (off : BitVec 8) (mask val : Word) (extra : Nat)
  | wait (extra : Nat)
  deriving DecidableEq, Repr

/-- The indexes 0 to 7 of the buffer and seed words. -/
def wordIndexes : List (BitVec 3) := [0#3, 1#3, 2#3, 3#3, 4#3, 5#3, 6#3, 7#3]

/-- The expansions of R78. -/
def Pseudo.expand : Pseudo → List Line
  | .ack => [.wr offCmd 0#32]
  | .transform => [.wr offCmd 1#32]
  | .calibrate => [.wr offCmd 2#32]
  | .clear => [.wr offCmd 3#32]
  | .wr64 x v => [.wr x.lo (loWord v), .wr x.hi (hiWord v)]
  | .rd64 x => [.rd x.lo, .rd x.hi]
  | .wrbuf bytes => wordIndexes.map fun k => .wr (offBuf k) (wordAt bytes k)
  | .wrseed bytes => wordIndexes.map fun k => .wr (offSeed k) (wordAt bytes k)
  | .rdbuf => wordIndexes.map fun k => .rd (offBuf k)
  | .poll off _ _ extra => List.replicate (extra + 1) (.rd off)
  | .wait extra => List.replicate (extra + 1) (.rd offStatus)

/-- The value `rd64` and `rdbuf` put together from their reads: `{hi, lo}` (R78). -/
def rd64Value (lo hi : Word) : Count := hi ++ lo

/-- `poll X, mask, val` ends at its last read and at no earlier one: `(result & mask) = val` (R78). -/
def pollEnds (mask val : Word) (results : List Word) : Bool :=
  match results with
  | [] => false
  | [r] => r &&& mask == val
  | r :: rest => r &&& mask != val && pollEnds mask val rest

/-- Whether the data the reads of a pseudo-instruction returned let the host go on: `wait` is `poll STATUS, 0x1, 0x0`
(R78). -/
def Pseudo.goesOn (p : Pseudo) (results : List Word) : Bool :=
  match p with
  | .poll _ mask val _ => pollEnds mask val results
  | .wait _ => pollEnds 0x1#32 0x0#32 results
  | .ack | .transform | .calibrate | .clear | .wr64 _ _ | .rd64 _ | .wrbuf _ | .wrseed _ | .rdbuf => true

/-- `BUDGET = seconds * TICK_HZ` in ticks (spec/60_exceptions.md R216). BUDGET has 64 bits, and the spec is silent on a
product beyond 2^64-1: this helper takes it modulo 2^64. DESIGN CHOICE (log entry 20). -/
def budgetOfSeconds (seconds : Nat) : Count := BitVec.ofNat 64 (seconds * Config.tickHz)

end Sys2Proof.Machine
end

