-- ==== Sys2Proof/Tests/Slice0.lean ====
section
/-! SUPPORT. Tests of the model: the well-formedness smoke tests, the decoding of words written out from
spec/30_encoding.md, one-step tests with results from spec/95_test_vectors.md (V10 to V58) or worked by hand from the
rules, and for every obligation with hypotheses a state and operands that meet them. -/

namespace Sys2Proof.Tests

open Sys2Proof Sys2Proof.Machine

/-! ## Helpers -/

/-- The next state, if the outcome is one. -/
def nextOf (r : Result) : Option State :=
  match r with
  | .next s => some s
  | .fault _ => none
  | .refused _ => none

/-- What a bus read returned. -/
def readOf (r : Result) : Option Word := (nextOf r).bind fun s => s.busRead

/-- STATUS as it stands in the next state. -/
def statusOf (r : Result) : Option Word := (nextOf r).map statusWord

/-- A cycle in which nothing happens and no time is shown. -/
def calm : CycleInput :=
  { rst := false, access := none, ksAck := false, encAck := false, encOut := none, time := ⟨false, 0#64⟩ }

/-- A cycle in which the host puts a word on the bus. -/
def onBus (w : AccessWord) : CycleInput := { calm with access := some w }

/-- A cycle in which the core answers a key setup. -/
def setUp : CycleInput := { calm with ksAck := true }

/-- A cycle in which a dutiful core answers an encryption. -/
def answered : CycleInput := { calm with encAck := true }

/-- A cycle in which the core answers an encryption with the value `v`. -/
def answeredWith (v : Bytes16) : CycleInput := { calm with encAck := true, encOut := some v }

/-- A cycle in which the time port shows `t`. -/
def clock (t : Count) : CycleInput := { calm with time := ⟨true, t⟩ }

/-- Idle with every word of the buffer and of the seed written (V19); some bytes are not zero. -/
def loaded : State :=
  { State.reset with
    buf := 0x0F0E0D0C0B0A09080706050403020100FFEEDDCCBBAA99887766554433221100#256
    seed := 0x1F1E1D1C1B1A191817161514131211100F0E0D0C0B0A09080706050403020102#256
    bufWmask := 0xFF#8, seedWmask := 0xFF#8 }

/-- Busy with the command `o` in the sequencer state `f`, the inputs `script` to come. -/
def running (o : Op) (f : Fsm) (script : List CycleInput) : State :=
  { loaded with op := o, fsm := f, rounds := 2#64, budget := 50#64, result := 9#64,
                sched := if f == .keysetup then none else some loaded.seed, script := script }

/-! ## Well-formedness: each check refuses an ill-formed term -/

theorem test_wf_refuses_code_of_4_7 : (Instr.cmdReserved47 3#4 0#28 0#2).wellFormed = false ∧
    (Instr.cmdReserved47 8#4 0#28 0#2).wellFormed = false := by decide
theorem test_wf_refuses_code_of_8_F : (Instr.cmdReserved8F 7#4 0#28 0#2).wellFormed = false := by decide
theorem test_wf_refuses_off_of_28_2C : (Instr.rdReserved282C 0x27#8).wellFormed = false ∧
    (Instr.wrReserved282C 0x30#8 0#32).wellFormed = false := by decide
theorem test_wf_refuses_off_of_30_3C : (Instr.rdReserved303C 0x2F#8).wellFormed = false ∧
    (Instr.wrReserved303C 0x40#8 0#32).wellFormed = false := by decide
theorem test_wf_refuses_off_of_80_FC : (Instr.rdReserved80FC 0x7F#8).wellFormed = false ∧
    (Instr.wrReserved80FC 0x00#8 0#32).wellFormed = false := by decide

/-! ## Decoding: words `{we, off, data}` written out from R70 to R73 -/

theorem test_decode_commands :
    decode 0b1_00000000_00000000000000000000000000000000#41 = .cmdAck 0#28 0#2 ∧
    decode 0b1_00000000_11111111111111111111111111110000#41 = .cmdAck 0xFFFFFFF#28 0#2 ∧
    decode 0b1_00000000_00000000000000000000000000000001#41 = .cmdTransform 0#28 0#2 ∧
    decode 0b1_00000011_00000000000000000000000000000010#41 = .cmdCalibrate 0#28 3#2 ∧
    decode 0b1_00000000_00000000000000000000000000010011#41 = .cmdClear 1#28 0#2 := by decide
theorem test_decode_reserved_commands :
    decode 0b1_00000000_00000000000000000000000000000100#41 = .cmdReserved47 4#4 0#28 0#2 ∧
    decode 0b1_00000000_00000000000000000000000000000111#41 = .cmdReserved47 7#4 0#28 0#2 ∧
    decode 0b1_00000000_00000000000000000000000000001000#41 = .cmdReserved8F 8#4 0#28 0#2 ∧
    decode 0b1_00000001_00000000000000000000000000001111#41 = .cmdReserved8F 15#4 0#28 1#2 := by decide
theorem test_decode_control_registers :
    decode 0b0_00000000_00000000000000000000000000000000#41 = .rdCmd 0#2 ∧
    decode 0b0_00000100_00000000000000000000000000000000#41 = .rdStatus 0#2 ∧
    decode 0b1_00000100_00000000000000000000000000000101#41 = .wrStatus 5#32 0#2 ∧
    decode 0b0_00001000_00000000000000000000000000000000#41 = .rdIrqEn 0#2 ∧
    decode 0b1_00001000_00000000000000000000000000000001#41 = .wrIrqEn 1#32 0#2 := by decide
theorem test_decode_rounds :
    decode 0b0_00010000_00000000000000000000000000000000#41 = .rdRoundsLo 0#2 ∧
    decode 0b1_00010000_00000000000000000000000000000010#41 = .wrRoundsLo 2#32 0#2 ∧
    decode 0b0_00010100_00000000000000000000000000000000#41 = .rdRoundsHi 0#2 ∧
    decode 0b1_00010100_00000000000000000000000000000001#41 = .wrRoundsHi 1#32 0#2 := by decide
theorem test_decode_budget :
    decode 0b0_00011000_00000000000000000000000000000000#41 = .rdBudgetLo 0#2 ∧
    decode 0b1_00011000_00000000000000000000000000110010#41 = .wrBudgetLo 50#32 0#2 ∧
    decode 0b0_00011100_00000000000000000000000000000000#41 = .rdBudgetHi 0#2 ∧
    decode 0b1_00011100_00000000000000000000000000000000#41 = .wrBudgetHi 0#32 0#2 := by decide
theorem test_decode_result :
    decode 0b0_00100000_00000000000000000000000000000000#41 = .rdResultLo 0#2 ∧
    decode 0b1_00100000_00000000000000000000000000000111#41 = .wrResultLo 7#32 0#2 ∧
    decode 0b0_00100100_00000000000000000000000000000000#41 = .rdResultHi 0#2 ∧
    decode 0b1_00100100_00000000000000000000000000000111#41 = .wrResultHi 7#32 0#2 := by decide
theorem test_decode_buffer_and_seed :
    decode 0b0_01000000_00000000000000000000000000000000#41 = .rdBuf 0#3 0#2 ∧
    decode 0b1_01010100_01000100001100110010001000010001#41 = .wrBuf 5#3 0x44332211#32 0#2 ∧
    decode 0b0_01111100_00000000000000000000000000000000#41 = .rdSeed 7#3 0#2 ∧
    decode 0b1_01100000_00010010001101000101011001111000#41 = .wrSeed 0#3 0x12345678#32 0#2 := by decide
theorem test_decode_reserved_offsets :
    decode 0b0_00001100_00000000000000000000000000000000#41 = .rdReserved0C 0#2 ∧
    decode 0b1_00001101_00000000000000000000000000000001#41 = .wrReserved0C 1#32 1#2 ∧
    decode 0b0_00101000_00000000000000000000000000000000#41 = .rdReserved282C 0x28#8 ∧
    decode 0b1_00101100_00000000000000000000000000000001#41 = .wrReserved282C 0x2C#8 1#32 ∧
    decode 0b0_00110000_00000000000000000000000000000000#41 = .rdReserved303C 0x30#8 ∧
    decode 0b1_00111100_00000000000000000000000000000001#41 = .wrReserved303C 0x3C#8 1#32 ∧
    decode 0b0_10000000_00000000000000000000000000000000#41 = .rdReserved80FC 0x80#8 ∧
    decode 0b1_11111100_00000000000000000000000000000001#41 = .wrReserved80FC 0xFC#8 1#32 := by decide
/-- R70: a number of 42 bits is no access word. -/
theorem test_decode_rejects_wider_numbers : decodeNumber (2 ^ 41) = .error .widerThanAccessWord := by decide
/-- R77: `W 54 44332211` and `R 04` are `{we, off, data}`. -/
theorem test_line_words : lineWord (.wr 0x54#8 0x44332211#32) = 0x15444332211#41 ∧
    lineWord (.rd offStatus) = 0x00400000000#41 := by decide
/-- R78: the two words of `wr64 ROUNDS, v`; lines 10 and 17 of program P2 in `wrseed`. -/
theorem test_pseudo_expansions :
    (Pseudo.wr64 .rounds 0x0000000100000002#64).expand = [.wr 0x10#8 2#32, .wr 0x14#8 1#32] ∧
    ((Pseudo.wrseed 0x1F1E1D1C1B1A191817161514131211100F0E0D0C0B0A09080706050403020100#256).expand).head? =
      some (.wr 0x60#8 0x03020100#32) ∧
    ((Pseudo.wrseed 0x1F1E1D1C1B1A191817161514131211100F0E0D0C0B0A09080706050403020100#256).expand).getLast? =
      some (.wr 0x7C#8 0x1F1E1D1C#32) := by decide
/-- R78: `wait` reads STATUS until BUSY is 0. -/
theorem test_wait_goes_on : (Pseudo.wait 1).goesOn [0xFFFF01#32, 0x00FF02#32] = true ∧
    (Pseudo.wait 0).goesOn [0xFFFF01#32] = false := by decide

/-! ## One access each (spec/95_test_vectors.md 3.1, 3.2) -/

/-- R103: CMD reads 0. -/
theorem test_rdCmd : readOf (exec (.rdCmd 0#2) loaded) = some 0#32 := by decide
/-- V10. -/
theorem test_rdStatus_after_reset : readOf (exec (.rdStatus 0#2) State.reset) = some 0#32 := by decide
/-- V19. -/
theorem test_rdStatus_loaded : readOf (exec (.rdStatus 0#2) loaded) = some 0x00FFFF00#32 := by decide
/-- R106: STATUS has no write-1-to-clear bits. -/
theorem test_wrStatus : nextOf (exec (.wrStatus 0xFFFFFFFF#32 0#2) { loaded with done := true }) =
    some { loaded with done := true } := by decide
/-- V13. -/
theorem test_irqEn : (nextOf (exec (.wrIrqEn 0xFFFFFFFF#32 0#2) State.reset)).bind
    (fun s => readOf (exec (.rdIrqEn 0#2) s)) = some 1#32 := by decide
/-- R108: bit 0 alone counts. -/
theorem test_wrIrqEn_bit_0 : (nextOf (exec (.wrIrqEn 0xFFFFFFFE#32 0#2) { loaded with ie := true })).map (·.ie) =
    some false := by decide
/-- V14. -/
theorem test_rounds : ((nextOf (exec (.wrRoundsLo 2#32 0#2) State.reset)).bind
    (fun s => nextOf (exec (.wrRoundsHi 1#32 0#2) s))).map (·.rounds) = some 0x0000000100000002#64 := by decide
/-- V14, the reads. -/
theorem test_rdRounds : readOf (exec (.rdRoundsLo 0#2) { loaded with rounds := 0x0000000100000002#64 }) = some 2#32 ∧
    readOf (exec (.rdRoundsHi 0#2) { loaded with rounds := 0x0000000100000002#64 }) = some 1#32 := by decide
/-- R113, R114: each half leaves the other. -/
theorem test_budget : (nextOf (exec (.wrBudgetLo 0x32#32 0#2) { loaded with budget := 0x1122334455667788#64 })).map
      (·.budget) = some 0x1122334400000032#64 ∧
    (nextOf (exec (.wrBudgetHi 0x32#32 0#2) { loaded with budget := 0x1122334455667788#64 })).map (·.budget) =
      some 0x0000003255667788#64 := by decide
/-- R112. -/
theorem test_rdBudget : readOf (exec (.rdBudgetLo 0#2) { loaded with budget := 0x1122334455667788#64 }) =
      some 0x55667788#32 ∧
    readOf (exec (.rdBudgetHi 0#2) { loaded with budget := 0x1122334455667788#64 }) = some 0x11223344#32 := by decide
/-- V15. -/
theorem test_result_not_writable : nextOf (exec (.wrResultLo 7#32 0#2) State.reset) = some State.reset ∧
    nextOf (exec (.wrResultHi 7#32 0#2) State.reset) = some State.reset := by decide
/-- R115: RESULT reads while busy, too. -/
theorem test_rdResult : readOf (exec (.rdResultLo 0#2) { running .transform .encA [] with result := 0x0000000300000018#64 }) =
      some 24#32 ∧
    readOf (exec (.rdResultHi 0#2) { running .transform .encA [] with result := 0x0000000300000018#64 }) =
      some 3#32 := by decide
/-- V11: the bytes, and STATUS with bit 5 of BUF_WMASK. -/
theorem test_wrBuf : (nextOf (exec (.wrBuf 5#3 0x44332211#32 0#2) State.reset)).map
      (fun s => (byteAt s.buf 20, byteAt s.buf 21, byteAt s.buf 22, byteAt s.buf 23)) =
      some (0x11#8, 0x22#8, 0x33#8, 0x44#8) ∧
    statusOf (exec (.wrBuf 5#3 0x44332211#32 0#2) State.reset) = some 0x00002000#32 := by decide
/-- V17 and the word of V36's block A: `33221100` is read back low byte first. -/
theorem test_rdBuf : readOf (exec (.rdBuf 0#3 3#2) loaded) = some 0x33221100#32 ∧
    readOf (exec (.rdBuf 7#3 0#2) loaded) = some 0x0F0E0D0C#32 := by decide
/-- V18: BUF reads 0 while busy. -/
theorem test_rdBuf_busy : readOf (exec (.rdBuf 0#3 0#2) (running .transform .encA [])) = some 0#32 := by decide
/-- V12: STATUS after the first seed word. -/
theorem test_wrSeed : statusOf (exec (.wrSeed 0#3 0x12345678#32 0#2) State.reset) = some 0x00010000#32 ∧
    (nextOf (exec (.wrSeed 7#3 0x12345678#32 0#2) State.reset)).map (fun s => (byteAt s.seed 28, byteAt s.seed 31)) =
      some (0x78#8, 0x12#8) := by decide
/-- V12: the seed is not readable. -/
theorem test_rdSeed : readOf (exec (.rdSeed 0#3 0#2) loaded) = some 0#32 := by decide
/-- V16. -/
theorem test_reserved_offsets_read_0 : readOf (exec (.rdReserved0C 0#2) loaded) = some 0#32 ∧
    readOf (exec (.rdReserved282C 0x28#8) loaded) = some 0#32 ∧
    readOf (exec (.rdReserved303C 0x3C#8) loaded) = some 0#32 ∧
    readOf (exec (.rdReserved80FC 0xFC#8) loaded) = some 0#32 := by decide
/-- V16, R122. -/
theorem test_reserved_writes : nextOf (exec (.wrReserved80FC 0x80#8 1#32) loaded) = some loaded ∧
    nextOf (exec (.wrReserved0C 1#32 0#2) loaded) = some loaded ∧
    nextOf (exec (.wrReserved282C 0x2C#8 1#32) loaded) = some loaded ∧
    nextOf (exec (.wrReserved303C 0x30#8 1#32) loaded) = some loaded := by decide
/-- R102: a write to a reserved offset while busy sets WR_IGNORED (STATUS bits 6 and 0). -/
theorem test_reserved_write_busy : statusOf (exec (.wrReserved80FC 0x80#8 1#32) (running .transform .encA [])) =
    some 0x00FFFF41#32 := by decide
/-- V18: ROUNDS stays. -/
theorem test_wrRounds_busy : (nextOf (exec (.wrRoundsLo 9#32 0#2) (running .transform .encA []))).map
    (fun s => (s.rounds, s.wrIgnored)) = some (2#64, true) := by decide
/-- V23; the example of R131. -/
theorem test_cmdAck : statusOf (exec (.cmdAck 0#28 0#2) { State.reset with err := .illegalCommand }) = some 0#32 ∧
    statusOf (exec (.cmdAck 0#28 0#2) { loaded with done := true, seedWmask := 0#8 }) = some 0x0000FF00#32 := by decide
/-- V20: a buffer word is missing. -/
theorem test_cmdTransform_rejected :
    statusOf (exec (.cmdTransform 0#28 0#2) { loaded with bufWmask := 0x7F#8 }) = some 0x00FF7F04#32 := by decide
/-- The example of R132: BUSY = 1, with both masks 0xFF. -/
theorem test_cmdTransform_accepted :
    statusOf (exec (.cmdTransform 0#28 0#2) { loaded with rounds := 3#64 }) = some 0x00FFFF01#32 := by decide
/-- V21, and line 10 of program P4 for CALIBRATE: the seed is missing. -/
theorem test_cmdCalibrate : statusOf (exec (.cmdCalibrate 0#28 0#2) loaded) = some 0x00FFFF01#32 ∧
    statusOf (exec (.cmdCalibrate 0#28 0#2) { loaded with seedWmask := 0#8 }) = some 0x0000FF04#32 := by decide
/-- V25. -/
theorem test_cmdClear : (nextOf (exec (.cmdClear 0#28 0#2)
      { loaded with rounds := 5#64, result := 9#64, ie := true, done := true })).map
      (fun s => (statusWord s, s.ie, s.rounds, s.result, s.buf, s.seed)) =
    some (0#32, true, 0#64, 0#64, 0#256, 0#256) := by decide
/-- R136, corner cases: "the state after CLEAR equals the reset state ... except IRQ_EN", the counters too. -/
theorem test_cmdClear_is_reset_but_for_ie : nextOf (exec (.cmdClear 0#28 0#2)
      { loaded with op := .calibrate, rc := 2#64, bc := 8#4, acc := 16#64, t0 := 7#64, ie := true, sat := true }) =
    some { State.reset with ie := true } := by decide
/-- V22. -/
theorem test_cmdReserved47 : statusOf (exec (.cmdReserved47 7#4 0#28 0#2) State.reset) = some 0x0000000C#32 := by decide
/-- V58: ILLEGAL_COMMAND, not INVALID_ARGUMENT. -/
theorem test_cmdReserved8F : statusOf (exec (.cmdReserved8F 9#4 0#28 0#2) { loaded with bufWmask := 0x7F#8 }) =
    some 0x00FF7F0C#32 := by decide
/-- V57. -/
theorem test_cmdCalibrate_busy : statusOf (exec (.cmdCalibrate 0#28 0#2) (running .transform .keysetup [])) =
    some 0x00FFFF41#32 := by decide

/-! ## The interrupt (V50 to V55) -/

theorem test_irq_level : State.irq { loaded with done := true } = false ∧
    State.irq { loaded with ie := true, done := true } = true ∧
    State.irq { loaded with ie := true, err := .illegalCommand } = true ∧
    State.irq { running .transform .encA [] with ie := true, wrIgnored := true } = false := by decide
theorem test_irq_falls_or_stays :
    (nextOf (exec (.cmdAck 0#28 0#2) { loaded with ie := true, done := true })).map State.irq = some false ∧
    (nextOf (exec (.cmdTransform 0#28 0#2) { State.reset with ie := true, err := .invalidArgument })).map State.irq =
      some true := by decide

/-! ## One cycle of the sequencer (spec/95_test_vectors.md 3.3 to 3.5) -/

/-- R152, R153: from KEYSETUP with `ROUNDS = 2`, with `ROUNDS = 0`, and of CALIBRATE. -/
theorem test_keysetup : (nextOf (step (running .transform .keysetup [setUp]))).map (·.fsm) = some .encA ∧
    (nextOf (step { running .transform .keysetup [setUp] with rounds := 0#64 })).map (·.fsm) = some .finish ∧
    (nextOf (step (running .calibrate .keysetup [setUp]))).map (·.fsm) = some .t0 := by decide
/-- V31: TADD with an all-zero seed makes block A `01 00 .. 00`, the byte 0 of BUF. -/
theorem test_encA : (nextOf (step { running .transform .encA [answeredWith 1#128] with buf := 0#256 })).map
    (fun s => (byteAt s.buf 0, byteAt s.buf 16, s.fsm)) = some (1#8, 0#8, .encB) := by decide
/-- V-trace: `rc` 0 to 1 goes on, 1 to 2 finishes `ROUNDS = 2`. -/
theorem test_encB_transform :
    (nextOf (step { running .transform .encB [answeredWith 1#128] with buf := 0#256 })).map
      (fun s => (byteAt s.buf 0, byteAt s.buf 16, s.rc, s.fsm)) = some (0#8, 1#8, 1#64, .encA) ∧
    (nextOf (step { running .transform .encB [answeredWith 1#128] with rc := 1#64 })).map
      (fun s => (s.rc, s.fsm)) = some (2#64, .finish) := by decide
/-- R159: after the 8th round of the first batch `acc = 8`, next SAMPLE. -/
theorem test_encB_calibrate :
    (nextOf (step { running .calibrate .encB [answered] with bc := 7#4 })).map (fun s => (s.bc, s.acc, s.fsm)) =
      some (8#4, 8#64, .sample) ∧
    (nextOf (step { running .calibrate .encB [answered] with bc := 6#4 })).map (fun s => (s.bc, s.acc, s.fsm)) =
      some (7#4, 0#64, .encA) := by decide
/-- The example of R157, and V43: an unavailable sample at T0. -/
theorem test_t0 : (nextOf (step (running .calibrate .t0 [clock 100#64]))).map (fun s => (s.t0, s.fsm)) =
      some (100#64, .batchCheck) ∧
    (nextOf (step (running .calibrate .t0 [calm]))).map (·.fsm) = some .fail := by decide
/-- V48. -/
theorem test_batchCheck :
    (nextOf (step { running .calibrate .batchCheck [calm] with acc := 0xFFFFFFFFFFFFFFF0#64 })).map
      (fun s => (s.sat, s.fsm)) = some (false, .encA) ∧
    (nextOf (step { running .calibrate .batchCheck [calm] with acc := 0xFFFFFFFFFFFFFFF8#64 })).map
      (fun s => (s.sat, s.fsm)) = some (true, .finish) := by decide
/-- The example of R160, budget 50 from 100. -/
theorem test_sample : (nextOf (step { running .calibrate .sample [clock 150#64] with t0 := 100#64 })).map (·.fsm) =
      some .finish ∧
    (nextOf (step { running .calibrate .sample [clock 149#64] with t0 := 100#64 })).map (·.fsm) =
      some .batchCheck := by decide
/-- V45 and V46: the elapsed time wraps. -/
theorem test_sample_wraps :
    (nextOf (step { running .calibrate .sample [clock 0x10#64] with t0 := 0xFFFFFFFFFFFFFFF0#64 })).map (·.fsm) =
      some .batchCheck ∧
    (nextOf (step { running .calibrate .sample [clock 990#64] with t0 := 1000#64 })).map (·.fsm) = some .finish := by
  decide
/-- V30's STATUS at the end, the seed wiped. -/
theorem test_finish : (nextOf (step { running .transform .finish [calm] with rc := 2#64 })).map
    (fun s => (statusWord s, s.result, s.seed, s.sched)) = some (0x0000FF02#32, 2#64, 0#256, none) := by decide
/-- V43's STATUS at the end, RESULT and BUF unchanged. -/
theorem test_fail : (nextOf (step (running .calibrate .fail [calm]))).map
    (fun s => (statusWord s, s.result, s.seed, decide (s.buf = loaded.buf))) =
    some (0x0000FF08#32, 9#64, 0#256, true) := by decide
/-- V56. -/
theorem test_reset_while_running :
    (nextOf (step { running .transform .encB [{ answered with rst := true }] with rc := 7#64 })).map
      (fun s => decide ({ s with cycle := 0 } = State.reset)) = some true := by decide
/-- R61, R102: a write in the cycle of FINISH is dropped. -/
theorem test_write_in_the_last_cycle : (nextOf (step (running .transform .finish [onBus 0x11000000009#41]))).map
    (fun s => (statusWord s, s.rounds)) = some (0x0000FF42#32, 2#64) := by decide
/-- R61: a STATUS read in the cycle of FINISH still sees BUSY and not DONE. -/
theorem test_read_in_the_last_cycle : (nextOf (step (running .transform .finish [onBus 0x00400000000#41]))).map
    (fun s => (s.busRead, s.done)) = some (some 0x00FFFF01#32, true) := by decide
/-- `withFetchWord`: the word is performed by the next step, from the reset state (V22). -/
theorem test_withFetchWord : statusOf (step (State.reset.withFetchWord 48 0x10000000007)) = some 0x0000000C#32 := by
  decide

/-! ## Witnesses: for every obligation with hypotheses, a state and operands that meet all of them -/

/-! ### Encoding and accesses -/

theorem witness_DecodeOfEncode : (Instr.cmdReserved47 4#4 0xFFFFFFF#28 3#2).wellFormed = true ∧
    (Instr.wrReserved80FC 0x80#8 0xFFFFFFFF#32).wellFormed = true ∧
    (Instr.wrBuf 7#3 0x44332211#32 1#2).wellFormed = true := by decide
theorem witness_EncodeOfDecode :
    (AccessWord.we 0x00400000000#41 = 0#1 ∧ AccessWord.data 0x00400000000#41 = 0#32) ∧
    AccessWord.we 0x1FC00000001#41 = 1#1 := by decide
theorem witness_DecodeSelectsTheOneRow :
    (Instr.wrBuf 0#3 0#32 0#2).row.covers 0x15444332211#41 = true ∧
    (Instr.cmdReserved8F 8#4 0#28 0#2).row.covers 0x1000000000F#41 = true := by decide
theorem witness_IgnoredBitsHaveNoEffect :
    (AccessWord.we 0x007FFFFFFFF#41 = AccessWord.we 0x00400000000#41 ∧
      AccessWord.word 0x007FFFFFFFF#41 = AccessWord.word 0x00400000000#41 ∧
      AccessWord.we 0x00400000000#41 ≠ 1#1) ∧
    (AccessWord.we 0x103FFFFFFF1#41 = AccessWord.we 0x10000000001#41 ∧
      AccessWord.word 0x103FFFFFFF1#41 = AccessWord.word 0x10000000001#41 ∧
      AccessWord.word 0x10000000001#41 = 0#6 ∧
      (AccessWord.data 0x103FFFFFFF1#41).extractLsb' 0 4 = (AccessWord.data 0x10000000001#41).extractLsb' 0 4) ∧
    (AccessWord.we 0x143AABBCCDD#41 = AccessWord.we 0x140AABBCCDD#41 ∧
      AccessWord.word 0x143AABBCCDD#41 = AccessWord.word 0x140AABBCCDD#41 ∧
      AccessWord.word 0x140AABBCCDD#41 ≠ 0#6 ∧
      AccessWord.data 0x143AABBCCDD#41 = AccessWord.data 0x140AABBCCDD#41) := by decide
theorem witness_ReadOnlyAndReservedWritesDoNothing : loaded.fsm = .idle ∧ (running .transform .encA []).fsm ≠ .idle ∧
    ∃ i : Instr, i = .wrReserved80FC 0xFC#8 1#32 := ⟨by decide, by decide, _, rfl⟩
theorem witness_BufferReadReturnsItsBytes : (running .transform .encA []).fsm ≠ .idle ∧ loaded.fsm = .idle := by decide
theorem witness_ReadsHaveNoSideEffects : AccessWord.we 0x00400000000#41 = 0#1 := by decide
theorem witness_BusyWritesAreDropped : AccessWord.we 0x10000000003#41 = 1#1 ∧
    AccessWord.we 0x1FF00000000#41 = 1#1 ∧ (running .transform .finish []).fsm ≠ .idle := by decide
theorem witness_BusyWriteLeavesTheCommandRunning :
    (running .transform .finish [onBus 0x11000000009#41]).script = [onBus 0x11000000009#41] ∧
    (onBus 0x11000000009#41).rst = false ∧ (onBus 0x11000000009#41).access = some 0x11000000009#41 ∧
    AccessWord.we 0x11000000009#41 = 1#1 ∧ (running .transform .finish [onBus 0x11000000009#41]).fsm ≠ .idle := by decide
theorem witness_OperandWritesStoreTheirData : loaded.fsm = .idle ∧ (running .transform .encA []).fsm ≠ .idle ∧
    ∃ i : Instr, i = .wrBudgetHi 1#32 0#2 := ⟨by decide, by decide, _, rfl⟩
theorem witness_BufferAndSeedWritesStoreTheirBytes : loaded.fsm = .idle ∧ (running .transform .encA []).fsm ≠ .idle ∧
    0 / 4 = (0#3).toNat ∧ 31 / 4 = (7#3).toNat ∧ 4 / 4 ≠ (0#3).toNat := by decide
theorem witness_AckClearsTheStickyFlags : { loaded with done := true, wrIgnored := true }.fsm = .idle := by decide
theorem witness_TransformIsAcceptedOrRejected :
    (loaded.fsm = .idle ∧ loaded.bufWmask = 0xFF#8 ∧ loaded.seedWmask = 0xFF#8) ∧
    ({ loaded with bufWmask := 0x7F#8 }.fsm = .idle ∧ { loaded with bufWmask := 0x7F#8 }.bufWmask ≠ 0xFF#8) ∧
    ({ loaded with seedWmask := 0xFE#8 }.fsm = .idle ∧ { loaded with seedWmask := 0xFE#8 }.seedWmask ≠ 0xFF#8) := by
  decide
theorem witness_CalibrateIsAcceptedOrRejected :
    (loaded.fsm = .idle ∧ loaded.bufWmask = 0xFF#8 ∧ loaded.seedWmask = 0xFF#8) ∧
    (State.reset.fsm = .idle ∧ State.reset.bufWmask ≠ 0xFF#8) := by decide
theorem witness_ClearZeroesTheData : { loaded with ie := true, result := 9#64, rc := 2#64 }.fsm = .idle ∧
    { loaded with ie := true, result := 9#64, rc := 2#64 }.sched = none := by decide
theorem witness_ReservedCodesAreIllegal : { loaded with bufWmask := 0x7F#8 }.fsm = .idle := by decide
theorem witness_CommandWritePriority :
    (AccessWord.we 0x1000000000F#41 = 1#1 ∧ AccessWord.word 0x1000000000F#41 = 0#6 ∧
      4 ≤ (AccessWord.data 0x1000000000F#41).toNat % 16) ∧
    4 ≤ (AccessWord.data 0x10000000004#41).toNat % 16 ∧
    (AccessWord.data 0x10000000001#41).toNat % 16 = 1 ∧ (AccessWord.data 0x10000000002#41).toNat % 16 = 2 ∧
    (AccessWord.data 0x100FFFFFFF0#41).toNat % 16 = 0 ∧ (AccessWord.data 0x10000000003#41).toNat % 16 = 3 ∧
    (loaded.fsm = .idle ∧ loaded.bufWmask = 0xFF#8 ∧ loaded.seedWmask = 0xFF#8) ∧
    (State.reset.fsm = .idle ∧ ¬ (State.reset.bufWmask = 0xFF#8 ∧ State.reset.seedWmask = 0xFF#8)) := by decide

/-! ### A clock cycle -/

theorem witness_StepPerformsTheAccess :
    ({ loaded with script := [onBus 0x10000000001#41] }.script = [onBus 0x10000000001#41] ∧
      (onBus 0x10000000001#41).rst = false ∧ (onBus 0x10000000001#41).access = some 0x10000000001#41 ∧
      loaded.fsm = .idle) ∧
    (running .transform .encA [onBus 0x00400000000#41]).script = [onBus 0x00400000000#41] ∧
    ∃ u, step (running .transform .encA [onBus 0x00400000000#41]) = .next u :=
  ⟨by decide, by decide, _, rfl⟩
theorem witness_IdleBlockKeepsItsState : { loaded with script := [answered] }.fsm = .idle ∧
    (cycleInput { loaded with script := [answered] }).rst = false ∧
    (cycleInput { loaded with script := [answered] }).access = none := by decide
theorem witness_ResetCycleRestoresResetState :
    (running .transform .encB [{ onBus 0x00400000000#41 with rst := true }]).script =
      [{ onBus 0x00400000000#41 with rst := true }] ∧
    ({ onBus 0x00400000000#41 with rst := true } : CycleInput).rst = true ∧
    AccessWord.we 0x00400000000#41 = 0#1 := by decide

/-! ### The sequencer -/

theorem witness_KeySetupStep : (running .transform .keysetup [setUp]).fsm = .keysetup ∧
    (cycleInput (running .transform .keysetup [setUp])).rst = false ∧
    (cycleInput (running .transform .keysetup [setUp])).ksAck = true ∧
    (cycleInput (running .calibrate .keysetup [calm])).ksAck = false := by decide
theorem witness_StartTimeStep : (running .calibrate .t0 [clock 100#64]).fsm = .t0 ∧
    (cycleInput (running .calibrate .t0 [clock 100#64])).rst = false ∧
    (cycleInput (running .calibrate .t0 [clock 100#64])).time.valid = true ∧
    (cycleInput (running .calibrate .t0 [calm])).time.valid = false := by decide
/-- The boundary: `acc = 2^64 - 8` is past it (V48), `2^64 - 9` is the last value that admits a batch. -/
theorem witness_BatchCheckStep : (running .calibrate .batchCheck [calm]).fsm = .batchCheck ∧
    (cycleInput (running .calibrate .batchCheck [calm])).rst = false ∧
    2 ^ 64 - 1 < (0xFFFFFFFFFFFFFFF8#64).toNat + 8 ∧ (0xFFFFFFFFFFFFFFF7#64).toNat + 8 ≤ 2 ^ 64 - 1 := by decide
theorem witness_EncryptBlockAStep : (running .transform .encA [answeredWith 1#128]).fsm = .encA ∧
    (cycleInput (running .transform .encA [answeredWith 1#128])).rst = false ∧
    (cycleInput (running .transform .encA [answeredWith 1#128])).encOut = some 1#128 ∧
    (cycleInput (running .transform .encA [answeredWith 1#128])).encAck = true := by decide
/-- The dutiful core's answer. -/
theorem witness_EncryptBlockAStep_dutiful : (running .transform .encA [answered]).fsm = .encA ∧
    (cycleInput (running .transform .encA [answered])).rst = false ∧
    (cycleInput (running .transform .encA [answered])).encOut = none ∧
    ∃ k, (running .transform .encA [answered]).sched = some k := ⟨rfl, rfl, rfl, _, rfl⟩
theorem witness_EncryptBlockBStepOfTransform : (running .transform .encB [answeredWith 1#128]).fsm = .encB ∧
    (running .transform .encB [answeredWith 1#128]).op = .transform ∧
    (cycleInput (running .transform .encB [answeredWith 1#128])).rst = false ∧
    (cycleInput (running .transform .encB [answeredWith 1#128])).encOut = some 1#128 ∧
    (cycleInput (running .transform .encB [answeredWith 1#128])).encAck = true := by decide
theorem witness_EncryptBlockBStepOfCalibrate :
    { running .calibrate .encB [answeredWith 1#128] with bc := 7#4 }.fsm = .encB ∧
    { running .calibrate .encB [answeredWith 1#128] with bc := 7#4 }.op = .calibrate ∧
    (cycleInput { running .calibrate .encB [answeredWith 1#128] with bc := 7#4 }).rst = false ∧
    (cycleInput { running .calibrate .encB [answeredWith 1#128] with bc := 7#4 }).encOut = some 1#128 ∧
    (cycleInput { running .calibrate .encB [answeredWith 1#128] with bc := 7#4 }).encAck = true ∧
    (7#4).toNat = 7 ∧ (6#4).toNat ≠ 7 := by decide
theorem witness_SampleStep : (running .calibrate .sample [clock 150#64]).fsm = .sample ∧
    (cycleInput (running .calibrate .sample [clock 150#64])).rst = false ∧
    (cycleInput (running .calibrate .sample [clock 150#64])).time.valid = true ∧
    (cycleInput (running .calibrate .sample [calm])).time.valid = false ∧
    (50#64).toNat ≤ ((150#64).toNat + 2 ^ 64 - (100#64).toNat) % 2 ^ 64 ∧
    ((149#64).toNat + 2 ^ 64 - (100#64).toNat) % 2 ^ 64 < (50#64).toNat := by decide
theorem witness_FinishAndFailSteps : (running .transform .finish [calm]).fsm = .finish ∧
    (running .calibrate .fail [calm]).fsm = .fail ∧
    (cycleInput (running .transform .finish [calm])).rst = false ∧
    (cycleInput (running .calibrate .fail [calm])).rst = false := by decide
theorem witness_UnansweredRequestsWaitForever : 2 ≤ (running .transform .keysetup [calm, answered]).script.length ∧
    2 ≤ (running .transform .encB [calm, setUp]).script.length ∧ (running .transform .keysetup [calm, answered]).fsm = .keysetup ∧
    (∀ inp, inp ∈ (running .transform .keysetup [calm, answered]).script → inp.rst = false ∧ inp.ksAck = false) ∧
    (running .transform .encB [calm, setUp]).fsm = .encB ∧
    (∀ inp, inp ∈ (running .transform .encB [calm, setUp]).script → inp.rst = false ∧ inp.encAck = false) := by decide
theorem witness_UnrequestedAnswersAreIgnored : (running .transform .encA [setUp]).script = [setUp] ∧
    (running .transform .encA [setUp]).fsm ≠ .keysetup ∧
    (running .transform .keysetup [answered]).script = [answered] ∧
    (running .transform .keysetup [answered]).fsm ≠ .encA ∧ (running .transform .keysetup [answered]).fsm ≠ .encB := by
  decide

/-! ### Ports, interrupt, invariant and the rules of the whole machine -/

theorem witness_PortRequestsFollowTheSequencer : calm.rst = false ∧
    (ports calm (running .transform .keysetup [])).setup = some loaded.seed ∧
    (ports calm (running .transform .encA [])).encrypt = some 0xFFEEDDCCBBAA99887766554433221100#128 ∧
    (ports calm (running .transform .encB [])).encrypt = some 0x0F0E0D0C0B0A09080706050403020100#128 := by decide
theorem witness_RequestsAreHeldUntilAnswered :
    (cycleInput (running .transform .keysetup [calm])).rst = false ∧ calm.rst = false ∧
    (∃ t, step (running .transform .keysetup [calm]) = .next t) ∧
    (running .transform .keysetup [calm]).fsm = .keysetup ∧
    (cycleInput (running .transform .keysetup [calm])).ksAck = false ∧
    (cycleInput (running .transform .keysetup [setUp])).ksAck = true ∧
    (running .transform .encA [calm]).fsm = .encA ∧ (running .transform .encB [calm]).fsm = .encB ∧
    (cycleInput (running .transform .encA [calm])).encAck = false ∧
    (cycleInput (running .transform .encB [calm])).encAck = false :=
  ⟨rfl, rfl, ⟨_, rfl⟩, rfl, rfl, rfl, rfl, rfl, rfl, rfl⟩
theorem witness_InterruptLevelAndHowItFalls : loaded.fsm = .idle ∧ AccessWord.we 0x10000000000#41 = 1#1 ∧
    AccessWord.word 0x10000000000#41 = 0#6 ∧ (AccessWord.data 0x10000000004#41).toNat % 16 = 4 ∧
    ((AccessWord.data 0x10000000002#41).toNat % 16 = 2 ∧ { loaded with seedWmask := 0x7F#8 }.seedWmask ≠ 0xFF#8) ∧
    calm.rst = false ∧ (cycleInput { loaded with script := [{ calm with rst := true }] }).rst = true ∧
    ∃ t, step { loaded with script := [{ calm with rst := true }] } = .next t :=
  ⟨rfl, by decide, by decide, by decide, by decide, rfl, rfl, _, rfl⟩

/-- The invariant of a running TRANSFORM. -/
theorem running_inv : BlockInv (running .transform .encA [answered]) where
  no_schedule := by decide
  schedule := by decide
  arguments := by decide
  no_outcome := by decide
  done_or_error := by decide
  saturated := by decide
  transform_path := by decide
  transform_start := by decide
  transform_rounds := by decide
  transform_finish := by decide
  calibrate_batch := by decide
  calibrate_acc := by decide
  unwritten_buf := by decide
  unwritten_seed := by decide
theorem witness_StatusReadReturnsItsFields : BlockInv (running .transform .encA [answered]) ∧
    (running .transform .encA [answered]).fsm ≠ .idle := ⟨running_inv, by decide⟩
theorem witness_ResetValues : calm.rst = false := rfl
theorem witness_StepKeepsTheInvariant : BlockInv (running .transform .encA [answered]) ∧
    ∃ t, step (running .transform .encA [answered]) = .next t := ⟨running_inv, _, rfl⟩

/-- A cycle with an answer, and one with a write. -/
theorem witness_BusyStepFrame : (running .transform .encA [answered]).fsm ≠ .idle ∧
    (cycleInput (running .transform .encA [answered])).rst = false ∧
    (∃ t, step (running .transform .encA [answered]) = .next t) ∧
    ∃ t, step (running .transform .encA [onBus 0x11000000009#41]) = .next t ∧ t.wrIgnored = true :=
  ⟨by decide, rfl, ⟨_, rfl⟩, _, rfl, rfl⟩
/-- The four clauses: DONE rises and RESULT changes in FINISH; CLEAR changes RESULT and clears a mask bit; an accepted
command makes the block busy. -/
theorem witness_OnlyTheirRulesWriteTheRegisters :
    (∃ t, step (running .transform .finish [calm]) = .next t ∧ t.done = true ∧ t.result ≠ 9#64) ∧
    (∃ t, step { loaded with result := 9#64, script := [onBus 0x10000000003#41] } = .next t ∧ t.result ≠ 9#64 ∧
      loaded.bufWmask.getLsbD 7 = true ∧ t.bufWmask.getLsbD 7 = false) ∧
    (∃ t, step { loaded with script := [onBus 0x10000000001#41] } = .next t ∧ t.fsm ≠ .idle) :=
  ⟨⟨_, rfl, by decide, by decide⟩, ⟨_, rfl, by decide, by decide, by decide⟩, ⟨_, rfl, by decide⟩⟩
theorem witness_NoReadTellsTheSeed : (∃ t, exec (decode 0x06000000000#41) loaded = .next t) ∧
    ∃ t, exec (decode 0x06000000000#41) { loaded with seed := 0#256, sched := some 1#256 } = .next t :=
  ⟨⟨_, rfl⟩, ⟨_, rfl⟩⟩

/-! ### Runs of one command

A run is checked cycle by cycle: no reset, a core that keeps its duty and its latency. -/

/-- What every cycle of the runs below keeps. -/
def lawful (p : Fsm) (s : State) : Bool :=
  !(cycleInput s).rst && (cycleInput s).encOut.isNone &&
    (p == s.fsm || (!(s.fsm == .keysetup && (cycleInput s).ksAck) && !(s.fsm.inRound && (cycleInput s).encAck)))

/-- The state after `n` cycles. -/
def after : Nat → State → State
  | 0, s => s
  | n + 1, s =>
    match step s with
    | .next u => after n u
    | .fault _ => s
    | .refused _ => s

/-- The port transactions that complete in `n` cycles. -/
def eventsIn : Nat → State → List PortEvent
  | 0, _ => []
  | n + 1, s =>
    portEvents (cycleInput s) s ++
      match step s with
      | .next u => eventsIn n u
      | .fault _ => []
      | .refused _ => []

/-- `n` lawful cycles, the block busy at the start of each. -/
def busyFor : Nat → Fsm → State → Bool
  | 0, _, _ => true
  | n + 1, p, s =>
    lawful p s && s.fsm != .idle &&
      match step s with
      | .next u => busyFor n s.fsm u
      | .fault _ => false
      | .refused _ => false

theorem lawful_noReset {p : Fsm} {s : State} (h : lawful p s = true) : noReset p s := by
  simp [lawful] at h; exact h.1.1

theorem lawful_dutiful {p : Fsm} {s : State} (h : lawful p s = true) : dutiful p s := by
  simp [lawful] at h; exact ⟨h.1.1, h.1.2⟩

theorem lawful_timely {p : Fsm} {s : State} (h : lawful p s = true) : timely p s := by
  simp only [lawful, Bool.and_eq_true, Bool.or_eq_true, beq_iff_eq, Bool.not_eq_true', Fsm.inRound] at h
  refine ⟨h.1.1, fun hp hf => ?_, fun hp hf => ?_⟩
  · rcases h.2 with he | he
    · exact absurd he hp
    · simpa [hf] using he.1
  · rcases h.2 with he | he
    · exact absurd he hp
    · rcases hf with hf | hf <;> simpa [hf] using he.2

theorem run_of_busyFor {env : Fsm → State → Prop} (law : ∀ {p s}, lawful p s = true → env p s) :
    ∀ (n : Nat) (p : Fsm) (s : State), busyFor n p s = true → BusyRun env p s (eventsIn n s) n (after n s)
  | 0, p, s, _ => .stop p s
  | n + 1, p, s, h => by
    cases hs : step s with
    | next u =>
      simp only [busyFor, hs, Bool.and_eq_true, bne_iff_ne] at h
      have run := run_of_busyFor law n s.fsm u h.2
      simp only [eventsIn, after, hs]
      exact .cycle p s u _ _ n (law h.1.1) h.1.2 hs run
    | fault r => cases r
    | refused r => simp [busyFor, hs] at h

/-- A command just accepted, with its operands and the inputs to come. -/
def start (o : Op) (rounds budget : Count) (script : List CycleInput) : State :=
  { running o .keysetup script with rounds := rounds, budget := budget }

theorem start_accepted (o : Op) (rounds budget : Count) (script : List CycleInput) :
    Accepted o (start o rounds budget script) where
  fsm := rfl
  op := rfl
  buf_written := rfl
  seed_written := rfl
  flags := ⟨rfl, rfl, rfl⟩
  no_schedule := rfl
  counters := by cases o <;> first | rfl | exact ⟨rfl, rfl⟩

/-- The inputs of one round: each answer in the second cycle of its request. -/
def round : List CycleInput := [calm, answered, calm, answered]

/-- V30, `ROUNDS = 0`: 3 cycles. -/
def zeroRun : State := start .transform 0#64 0#64 [calm, setUp, calm]
/-- `ROUNDS = 1`: 2 + 4 + 1 cycles, the bound of R242. -/
def oneRun : State := start .transform 1#64 0#64 ([calm, setUp] ++ round ++ [calm])
/-- `ROUNDS = 2`: 2 + 8 + 1 cycles. -/
def twoRun : State := start .transform 2#64 0#64 ([calm, setUp] ++ round ++ round ++ [calm])
/-- V43: the clock fails at T0. -/
def clockFails : State := start .calibrate 0#64 50#64 [calm, setUp, calm, calm]
/-- V40, `BUDGET = 0`: one batch, 2 + 1 + (1 + 32 + 1) + 1 cycles. -/
def oneBatch : State := start .calibrate 0#64 0#64
  ([calm, setUp, clock 500#64, calm] ++ (round ++ round ++ round ++ round) ++ (round ++ round ++ round ++ round) ++
    [clock 500#64, calm])

theorem zeroRun_ends : busyFor 3 .idle zeroRun = true ∧ (after 3 zeroRun).fsm = .idle := by decide
theorem oneRun_ends : busyFor 7 .idle oneRun = true ∧ (after 7 oneRun).fsm = .idle := by decide
theorem twoRun_ends : busyFor 11 .idle twoRun = true ∧ (after 11 twoRun).fsm = .idle := by decide
theorem clockFails_ends : busyFor 4 .idle clockFails = true ∧ (after 4 clockFails).fsm = .idle := by decide
theorem oneBatch_ends : busyFor 38 .idle oneBatch = true ∧ (after 38 oneBatch).fsm = .idle := by decide

/-- Beside the dutiful answers of `twoRun`, a core that drives 5 each time. -/
theorem witness_RunningCommandShowsNoKeyMaterial :
    BusyRun dutiful .idle twoRun (eventsIn 11 twoRun) 11 (after 11 twoRun) ∧
    (twoRun.script.map fun inp => { inp with encOut := some 5#128 }).map (fun inp => { inp with encOut := none }) =
      twoRun.script.map (fun inp => { inp with encOut := none }) :=
  ⟨run_of_busyFor lawful_dutiful _ _ _ twoRun_ends.1, by decide⟩
/-- After the first round, of two, and after the first round of a batch. -/
theorem witness_RunningBufferHoldsItsRounds :
    (Accepted .transform twoRun ∧ BusyRun dutiful .idle twoRun (eventsIn 6 twoRun) 6 (after 6 twoRun) ∧
      (after 6 twoRun).fsm = .encA) ∧
    (Accepted .calibrate oneBatch ∧ BusyRun dutiful .idle oneBatch (eventsIn 8 oneBatch) 8 (after 8 oneBatch) ∧
      (after 8 oneBatch).fsm = .encA) :=
  ⟨⟨start_accepted _ _ _ _, run_of_busyFor lawful_dutiful _ _ _ (by decide), by decide⟩,
    start_accepted _ _ _ _, run_of_busyFor lawful_dutiful _ _ _ (by decide), by decide⟩
theorem witness_TransformEndState : Accepted .transform twoRun ∧
    BusyRun dutiful .idle twoRun (eventsIn 11 twoRun) 11 (after 11 twoRun) ∧ (after 11 twoRun).fsm = .idle :=
  ⟨start_accepted _ _ _ _, run_of_busyFor lawful_dutiful _ _ _ twoRun_ends.1, twoRun_ends.2⟩
theorem witness_TransformPortTraffic : Accepted .transform twoRun ∧
    BusyRun dutiful .idle twoRun (eventsIn 11 twoRun) 11 (after 11 twoRun) ∧ (after 11 twoRun).fsm = .idle :=
  ⟨start_accepted _ _ _ _, run_of_busyFor lawful_dutiful _ _ _ twoRun_ends.1, twoRun_ends.2⟩
/-- An environment whose core answers in every second cycle, with a clock that shows 0, then 50, and can fail. -/
def steady (clockIsUp : Nat → Bool) : Environment := fun n =>
  { calm with
    ksAck := decide (n % 2 = 1), encAck := decide (n % 2 = 1)
    time := ⟨clockIsUp n, if n < 20 then 0#64 else 50#64⟩ }
theorem steady_answers (clockIsUp : Nat → Bool) (s : State) : coreAnswers (steady clockIsUp) s := fun _ n _ _ =>
  ⟨fun _ => ⟨2 * n + 1, by omega, by simp [steady]⟩, fun _ => ⟨2 * n + 1, by omega, by simp [steady]⟩⟩
/-- All `1 + 2N` transactions have completed and FINISH is left; and an environment that answers eventually. -/
theorem witness_TransformEndsAfterItsAnswers : (Accepted .transform twoRun ∧
    BusyRun noReset .idle twoRun (eventsIn 10 twoRun) 10 (after 10 twoRun) ∧
    (eventsIn 10 twoRun).length = 1 + 2 * twoRun.rounds.toNat ∧ (after 10 twoRun).fsm ≠ .idle ∧
    (cycleInput (after 10 twoRun)).rst = false) ∧
    neverResets (steady fun _ => true) ∧ coreAnswers (steady fun _ => true) twoRun :=
  ⟨⟨start_accepted _ _ _ _, run_of_busyFor lawful_noReset _ _ _ (by decide), by decide, by decide, by decide⟩,
    fun _ => rfl, steady_answers _ _⟩
theorem witness_TransformTakesItsCycles : Accepted .transform twoRun ∧
    BusyRun timely .idle twoRun (eventsIn 11 twoRun) 11 (after 11 twoRun) ∧ (after 11 twoRun).fsm = .idle :=
  ⟨start_accepted _ _ _ _, run_of_busyFor lawful_timely _ _ _ twoRun_ends.1, twoRun_ends.2⟩
theorem witness_ZeroRoundsIsIdentity : Accepted .transform zeroRun ∧
    BusyRun noReset .idle zeroRun (eventsIn 3 zeroRun) 3 (after 3 zeroRun) ∧ (after 3 zeroRun).fsm = .idle ∧ zeroRun.rounds = 0#64 :=
  ⟨start_accepted _ _ _ _, run_of_busyFor lawful_noReset _ _ _ zeroRun_ends.1, zeroRun_ends.2, rfl⟩

/-- `twoRun` with another script, in which the core answers without delay, a word is on the bus and the time port moves. -/
def twoRunFast : State := start .transform 2#64 77#64
  [setUp, { answered with access := some 0x11000000009#41 }, answered, { answered with time := ⟨true, 5#64⟩ }, answered, calm]
theorem twoRunFast_run : Accepted .transform twoRunFast ∧
    BusyRun dutiful .keysetup twoRunFast (eventsIn 6 twoRunFast) 6 (after 6 twoRunFast) ∧
    (after 6 twoRunFast).fsm = .idle := by
  refine ⟨start_accepted _ _ _ _, ?_, by decide⟩
  refine .cycle _ _ _ _ _ _ ⟨rfl, rfl⟩ (by decide) rfl ?_
  refine .cycle _ _ _ _ _ _ ⟨rfl, rfl⟩ (by decide) rfl ?_
  refine .cycle _ _ _ _ _ _ ⟨rfl, rfl⟩ (by decide) rfl ?_
  refine .cycle _ _ _ _ _ _ ⟨rfl, rfl⟩ (by decide) rfl ?_
  refine .cycle _ _ _ _ _ _ ⟨rfl, rfl⟩ (by decide) rfl ?_
  exact .cycle _ _ _ _ _ _ ⟨rfl, rfl⟩ (by decide) rfl (.stop _ _)
theorem witness_TransformIsDeterministic :
    Accepted .transform twoRun ∧ Accepted .transform twoRunFast ∧ twoRun.buf = twoRunFast.buf ∧
    twoRun.seed = twoRunFast.seed ∧ twoRun.rounds = twoRunFast.rounds ∧
    (BusyRun dutiful .idle twoRun (eventsIn 11 twoRun) 11 (after 11 twoRun) ∧ (after 11 twoRun).fsm = .idle) ∧
    (BusyRun dutiful .keysetup twoRunFast (eventsIn 6 twoRunFast) 6 (after 6 twoRunFast) ∧
      (after 6 twoRunFast).fsm = .idle) :=
  ⟨start_accepted _ _ _ _, twoRunFast_run.1, rfl, rfl, rfl,
    ⟨run_of_busyFor lawful_dutiful _ _ _ twoRun_ends.1, twoRun_ends.2⟩, twoRunFast_run.2⟩

/-- `oneRun` on the buffer that `oneRun` left. -/
def oneMore : State := { oneRun with buf := (after 7 oneRun).buf }
theorem oneMore_accepted : Accepted .transform oneMore where
  fsm := rfl
  op := rfl
  buf_written := rfl
  seed_written := rfl
  flags := ⟨rfl, rfl, rfl⟩
  no_schedule := rfl
  counters := rfl
theorem witness_TransformIsAdditive :
    Accepted .transform oneRun ∧ Accepted .transform oneMore ∧ Accepted .transform twoRun ∧
    (BusyRun dutiful .idle oneRun (eventsIn 7 oneRun) 7 (after 7 oneRun) ∧ (after 7 oneRun).fsm = .idle) ∧
    oneMore.buf = (after 7 oneRun).buf ∧ oneMore.seed = oneRun.seed ∧
    (BusyRun dutiful .idle oneMore (eventsIn 7 oneMore) 7 (after 7 oneMore) ∧ (after 7 oneMore).fsm = .idle) ∧
    twoRun.buf = oneRun.buf ∧ twoRun.seed = oneRun.seed ∧
    twoRun.rounds.toNat = oneRun.rounds.toNat + oneMore.rounds.toNat ∧
    (BusyRun dutiful .idle twoRun (eventsIn 11 twoRun) 11 (after 11 twoRun) ∧ (after 11 twoRun).fsm = .idle) :=
  ⟨start_accepted _ _ _ _, oneMore_accepted, start_accepted _ _ _ _,
    ⟨run_of_busyFor lawful_dutiful _ _ _ oneRun_ends.1, oneRun_ends.2⟩, rfl, rfl,
    ⟨run_of_busyFor lawful_dutiful _ _ _ (by decide), by decide⟩, rfl, rfl, by decide,
    ⟨run_of_busyFor lawful_dutiful _ _ _ twoRun_ends.1, twoRun_ends.2⟩⟩

/-- `twoRun` with another block B, and with another block A. -/
def otherB : State := { twoRun with buf := joinBlocks (blockA loaded.buf) 7#128 }
def otherA : State := { twoRun with buf := joinBlocks 7#128 (blockB loaded.buf) }
theorem otherB_accepted : Accepted .transform otherB := ⟨rfl, rfl, rfl, rfl, ⟨rfl, rfl, rfl⟩, rfl, rfl⟩
theorem otherA_accepted : Accepted .transform otherA := ⟨rfl, rfl, rfl, rfl, ⟨rfl, rfl, rfl⟩, rfl, rfl⟩
theorem witness_HalvesAreIndependent :
    (Accepted .transform otherB ∧ otherB.seed = twoRun.seed ∧
      BusyRun dutiful .idle otherB (eventsIn 11 otherB) 11 (after 11 otherB) ∧ (after 11 otherB).fsm = .idle ∧
      (encryptions (eventsIn 11 otherB)).length = (encryptions (eventsIn 11 twoRun)).length ∧
      blockA otherB.buf = blockA twoRun.buf) ∧
    (Accepted .transform otherA ∧ otherA.seed = twoRun.seed ∧
      BusyRun dutiful .idle otherA (eventsIn 11 otherA) 11 (after 11 otherA) ∧ (after 11 otherA).fsm = .idle ∧
      (encryptions (eventsIn 11 otherA)).length = (encryptions (eventsIn 11 twoRun)).length ∧
      blockB otherA.buf = blockB twoRun.buf) ∧
    Accepted .transform twoRun ∧ BusyRun dutiful .idle twoRun (eventsIn 11 twoRun) 11 (after 11 twoRun) ∧
    (after 11 twoRun).fsm = .idle :=
  ⟨⟨otherB_accepted, rfl, run_of_busyFor lawful_dutiful _ _ _ (by decide), by decide, by decide, by decide⟩,
    ⟨otherA_accepted, rfl, run_of_busyFor lawful_dutiful _ _ _ (by decide), by decide, by decide, by decide⟩,
    start_accepted _ _ _ _, run_of_busyFor lawful_dutiful _ _ _ twoRun_ends.1, twoRun_ends.2⟩

/-- A success after one batch, and a clock failure at T0. -/
theorem witness_CalibrateEndState :
    (Accepted .calibrate oneBatch ∧ BusyRun dutiful .idle oneBatch (eventsIn 38 oneBatch) 38 (after 38 oneBatch) ∧
      (after 38 oneBatch).fsm = .idle ∧ (after 38 oneBatch).done = true) ∧
    (Accepted .calibrate clockFails ∧
      BusyRun dutiful .idle clockFails (eventsIn 4 clockFails) 4 (after 4 clockFails) ∧
      (after 4 clockFails).fsm = .idle ∧ (after 4 clockFails).done = false) :=
  ⟨⟨start_accepted _ _ _ _, run_of_busyFor lawful_dutiful _ _ _ oneBatch_ends.1, oneBatch_ends.2, by decide⟩,
    start_accepted _ _ _ _, run_of_busyFor lawful_dutiful _ _ _ clockFails_ends.1, clockFails_ends.2, by decide⟩
/-- A success at the budget, and a failed first sample. -/
theorem witness_CalibrateStopsAtTheBudget :
    (Accepted .calibrate oneBatch ∧ BusyRun noReset .idle oneBatch (eventsIn 38 oneBatch) 38 (after 38 oneBatch) ∧
      (after 38 oneBatch).fsm = .idle ∧ (after 38 oneBatch).done = true) ∧
    (Accepted .calibrate clockFails ∧ BusyRun noReset .idle clockFails (eventsIn 4 clockFails) 4 (after 4 clockFails) ∧
      (after 4 clockFails).fsm = .idle ∧ (after 4 clockFails).done = false) :=
  ⟨⟨start_accepted _ _ _ _, run_of_busyFor lawful_noReset _ _ _ oneBatch_ends.1, oneBatch_ends.2, by decide⟩,
    start_accepted _ _ _ _, run_of_busyFor lawful_noReset _ _ _ clockFails_ends.1, clockFails_ends.2, by decide⟩
theorem witness_ZeroBudgetRunsOneBatch : Accepted .calibrate oneBatch ∧
    BusyRun noReset .idle oneBatch (eventsIn 38 oneBatch) 38 (after 38 oneBatch) ∧ (after 38 oneBatch).fsm = .idle ∧
    oneBatch.budget = 0#64 ∧ (after 38 oneBatch).done = true :=
  ⟨start_accepted _ _ _ _, run_of_busyFor lawful_noReset _ _ _ oneBatch_ends.1, oneBatch_ends.2, rfl, by decide⟩
theorem witness_CalibrateTakesItsCycles : Accepted .calibrate oneBatch ∧
    BusyRun timely .idle oneBatch (eventsIn 38 oneBatch) 38 (after 38 oneBatch) ∧ (after 38 oneBatch).fsm = .idle ∧
    (after 38 oneBatch).done = true ∧ (after 38 oneBatch).result.toNat = 8 * 1 :=
  ⟨start_accepted _ _ _ _, run_of_busyFor lawful_timely _ _ _ oneBatch_ends.1, oneBatch_ends.2, by decide, by decide⟩
/-- The first `n` cycles of a CALIBRATE of budget 50 in the environment `env`. -/
def inEnv (env : Environment) (n : Nat) : State := start .calibrate 0#64 50#64 ((List.range n).map env)
/-- A clock that is up for 40 cycles and then unavailable. -/
def up40 (n : Nat) : Bool := decide (n < 40)
theorem steady_duties (s : State) : EnvironmentDuties (steady up40) s where
  answers := steady_answers _ _
  value := fun _ => rfl
  monotonic := fun m n hmn _ _ => by simp only [steady]; split <;> split <;> first | omega | decide
  advances := fun _ n _ _ _ => ⟨n + 40, by omega, .inr fun k hk => by simp [steady, up40]; omega⟩
/-- A run, an environment that keeps its duties with the command in BATCH_CHECK, in the first cycle in which the time is
up, and at its end, and a clock that is always up. -/
theorem witness_CalibrateBatchesAreBounded :
    (Accepted .calibrate oneBatch ∧ BusyRun noReset .idle oneBatch (eventsIn 38 oneBatch) 38 (after 38 oneBatch)) ∧
    (Accepted .calibrate (start .calibrate 0#64 50#64 []) ∧ neverResets (steady up40) ∧
      EnvironmentDuties (steady up40) (start .calibrate 0#64 50#64 []) ∧
      (∃ u es, CommandRun (steady up40) (start .calibrate 0#64 50#64 []) es 3 u ∧ u.fsm = .batchCheck ∧
        ¬ timeIsUp (steady up40) u 19 ∧ timeIsUp (steady up40) u 20) ∧
      (∃ v es, CommandRun (steady up40) (start .calibrate 0#64 50#64 []) es 20 v) ∧
      ∃ t es, CommandRun (steady up40) (start .calibrate 0#64 50#64 []) es 38 t ∧ t.fsm = .idle ∧ t.done = true) ∧
    coreAnswers (steady fun _ => true) oneBatch ∧ ∀ m, ((steady fun _ => true) m).time.valid = true :=
  ⟨⟨start_accepted _ _ _ _, run_of_busyFor lawful_noReset _ _ _ oneBatch_ends.1⟩,
    ⟨start_accepted _ _ _ _, fun _ => rfl, steady_duties _,
      ⟨_, _, run_of_busyFor lawful_noReset 3 .idle (inEnv (steady up40) 3) (by decide), by decide,
        fun h => h.elim (fun h => absurd h.2 (by decide)) (fun h => absurd (h 19 (by decide)) (by decide)),
        .inl (by decide)⟩,
      ⟨_, _, run_of_busyFor lawful_noReset 20 .idle (inEnv (steady up40) 20) (by decide)⟩,
      ⟨_, _, run_of_busyFor lawful_noReset 38 .idle (inEnv (steady up40) 38) (by decide), by decide, by decide⟩⟩,
    steady_answers _ _, fun _ => rfl⟩
/-- Still busy, done, and failed. -/
theorem witness_StatusShowsTheCommand :
    (Accepted .transform twoRun ∧ BusyRun noReset .idle twoRun (eventsIn 10 twoRun) 10 (after 10 twoRun)) ∧
    (Accepted .transform twoRun ∧ BusyRun noReset .idle twoRun (eventsIn 11 twoRun) 11 (after 11 twoRun)) ∧
    (Accepted .calibrate clockFails ∧
      BusyRun noReset .idle clockFails (eventsIn 4 clockFails) 4 (after 4 clockFails)) :=
  ⟨⟨start_accepted _ _ _ _, run_of_busyFor lawful_noReset _ _ _ (by decide)⟩,
    ⟨start_accepted _ _ _ _, run_of_busyFor lawful_noReset _ _ _ twoRun_ends.1⟩,
    start_accepted _ _ _ _, run_of_busyFor lawful_noReset _ _ _ clockFails_ends.1⟩

end Sys2Proof.Tests
end

section
/-! SUPPORT. Proofs about the block's state (spec/10_state.md): what the host access of a cycle can do, which registers each
sequencer state writes, and the invariant of R46 along every step and every run. -/

namespace Sys2Proof.Machine

/-! ## The parts of a cycle -/

/-- A cycle with reset ends in the reset state (R230). -/
theorem step_of_reset {s : State} (hr : (cycleInput s).rst = true) :
    step s = .next (resetCycle (cycleInput s) (beginCycle s)) := by simp [step, clockCycle, hr]

/-- A cycle without reset is its host access followed by the sequencer's step (R61). -/
theorem step_without_reset {s t : State} (hr : (cycleInput s).rst = false) (h : step s = .next t) :
    ∃ u, performAccess (cycleInput s).access (beginCycle s) = .next u ∧
      t = sequencerStep s.fsm (cycleInput s) u := by
  simp only [step, clockCycle, hr, Bool.false_eq_true, if_false] at h
  cases ha : performAccess (cycleInput s).access (beginCycle s) with
  | next u =>
    simp only [ha, Host.Outcome.next.injEq] at h
    exact ⟨u, rfl, h.symm⟩
  | fault r => cases r
  | refused r => simp [ha] at h

/-- A read returns a word and changes nothing else (R59, R100). -/
theorem exec_of_isRead {i : Instr} (h : i.isRead = true) (s : State) : ∃ v, exec i s = .next (busReturn v s) := by
  cases i <;> first | exact ⟨_, rfl⟩ | cases h

/-- The access of a busy cycle touches the bus fields only (R59, R102). -/
theorem busOnly_of_performAccess {access : Option AccessWord} {s u : State} (hb : s.fsm ≠ .idle)
    (h : performAccess access s = .next u) : BusOnly s u := by
  cases access with
  | none => cases h; exact .none
  | some w =>
    obtain he | ⟨v, he⟩ := exec_of_busy (decode w) ((busy_iff s).2 hb)
    · cases he.symm.trans h; exact .dropped
    · cases he.symm.trans h; exact .read v

/-- An access that is no write leaves WR_IGNORED alone (R59). -/
theorem performAccess_wrIgnored {access : Option AccessWord} {s u : State}
    (hread : ∀ w, access = some w → w.we ≠ 1#1) (h : performAccess access s = .next u) :
    u.wrIgnored = s.wrIgnored := by
  cases access with
  | none => cases h; rfl
  | some w =>
    have hw : (decode w).isRead = true := by
      have := hread w rfl
      rw [isRead_decode]
      simp only [decide_eq_true_eq]
      bv_omega
    obtain ⟨v, he⟩ := exec_of_isRead hw s
    cases he.symm.trans h
    rfl

/-- What the host access of a cycle can leave of an idle block; of the instruction on the bus it tells the commands that
start or CLEAR (R101, R130). -/
inductive IdleAccess (s : State) : Option Instr → State → Prop where
  /-- no access, or a write that does nothing (R106, R116, R122) -/
  | kept (i : Option Instr) : IdleAccess s i s
  | read (i : Instr) (v : Word) : IdleAccess s (some i) (busReturn v s)
  | irqEn (i : Instr) (b : Bool) : IdleAccess s (some i) { s with ie := b }
  | rounds (i : Instr) (r : Count) : IdleAccess s (some i) { s with rounds := r }
  | budget (i : Instr) (b : Count) : IdleAccess s (some i) { s with budget := b }
  | buf (i : Instr) (k : BitVec 3) (data : Word) :
      IdleAccess s (some i) { s with buf := setWord s.buf k data, bufWmask := setMaskBit s.bufWmask k }
  | seed (i : Instr) (k : BitVec 3) (data : Word) :
      IdleAccess s (some i) { s with seed := setWord s.seed k data, seedWmask := setMaskBit s.seedWmask k }
  | acked (i : Instr) : IdleAccess s (some i) (clearFlags s)
  /-- a reserved code, or a command without its arguments (R137, R138) -/
  | rejected (i : Instr) (code : ErrCode) : IdleAccess s (some i) (recordError code (clearFlags s))
  | transform (ignored : BitVec 28) (lane : BitVec 2) : argumentsPresent s = true →
      IdleAccess s (some (.cmdTransform ignored lane)) (acceptTransform (clearFlags s))
  | calibrate (ignored : BitVec 28) (lane : BitVec 2) : argumentsPresent s = true →
      IdleAccess s (some (.cmdCalibrate ignored lane)) (acceptCalibrate (clearFlags s))
  | clear (ignored : BitVec 28) (lane : BitVec 2) :
      IdleAccess s (some (.cmdClear ignored lane)) (clearData (clearFlags s))

/-- A command written to an idle block is accepted or rejected with INVALID_ARGUMENT (R138). -/
theorem commandWrite_startCommand {s : State} (hb : s.busy = false) (accept : State → State) :
    argumentsPresent s = true ∧ commandWrite (startCommand accept) s = accept (clearFlags s) ∨
      commandWrite (startCommand accept) s = recordError .invalidArgument (clearFlags s) := by
  rw [commandWrite_of_idle hb]
  cases ha : argumentsPresent s with
  | true => exact .inl ⟨rfl, startCommand_of_present ha⟩
  | false => exact .inr (startCommand_of_missing ha)

/-- An instruction performed on an idle block does one of these. -/
theorem idleAccess_of_exec {i : Instr} {s u : State} (hf : s.fsm = .idle) (h : exec i s = .next u) :
    IdleAccess s (some i) u := by
  have hb : s.busy = false := (not_busy_iff s).2 hf
  have write : ∀ {e : State → State}, .next (busWrite e s) = exec i s → u = e s := fun he => by
    rw [busWrite_of_idle hb] at he
    cases he.trans h
    rfl
  by_cases hr : i.isRead = true
  · obtain ⟨v, he⟩ := exec_of_isRead hr s
    cases he.symm.trans h
    exact .read i v
  cases i
  case cmdTransform x l =>
    obtain ⟨ha, he⟩ | he := commandWrite_startCommand hb acceptTransform <;> cases h <;> rw [he]
    · exact .transform x l ha
    · exact .rejected _ _
  case cmdCalibrate x l =>
    obtain ⟨ha, he⟩ | he := commandWrite_startCommand hb acceptCalibrate <;> cases h <;> rw [he]
    · exact .calibrate x l ha
    · exact .rejected _ _
  case cmdAck => rw [write rfl]; exact .acked _
  case cmdClear x l => rw [write rfl]; exact .clear x l
  case cmdReserved47 | cmdReserved8F => rw [write rfl]; exact .rejected _ .illegalCommand
  case wrIrqEn => rw [write rfl]; exact .irqEn _ _
  case wrRoundsLo | wrRoundsHi => rw [write rfl]; exact .rounds _ _
  case wrBudgetLo | wrBudgetHi => rw [write rfl]; exact .budget _ _
  case wrBuf k data _ => rw [write rfl]; exact .buf _ k data
  case wrSeed k data _ => rw [write rfl]; exact .seed _ k data
  case wrStatus | wrResultLo | wrResultHi | wrReserved0C | wrReserved282C | wrReserved303C | wrReserved80FC =>
    rw [write rfl]; exact .kept _
  all_goals exact absurd rfl hr

theorem idleAccess_of_performAccess {access : Option AccessWord} {s u : State} (hf : s.fsm = .idle)
    (h : performAccess access s = .next u) : IdleAccess s (access.map decode) u := by
  cases access with
  | none => cases h; exact .kept none
  | some w => exact idleAccess_of_exec hf h

/-! ## The registers each sequencer state writes (R150) -/

section
variable (inp : CycleInput) (s : State)

theorem stepKeysetup_writes : ∃ c f, stepKeysetup inp s = { s with sched := c, fsm := f } := by
  unfold stepKeysetup
  split
  · exact ⟨_, _, rfl⟩
  · exact ⟨s.sched, s.fsm, rfl⟩

theorem stepT0_writes : ∃ t f, stepT0 inp s = { s with t0 := t, fsm := f } := by
  unfold stepT0
  split
  · exact ⟨s.t0, _, rfl⟩
  · exact ⟨_, _, rfl⟩

theorem stepBatchCheck_writes : ∃ b c f, stepBatchCheck s = { s with sat := b, bc := c, fsm := f } := by
  unfold stepBatchCheck
  split
  · exact ⟨_, s.bc, _, rfl⟩
  · exact ⟨s.sat, _, _, rfl⟩

theorem stepEncA_writes : ∃ b f, stepEncA inp s = { s with buf := b, fsm := f } := by
  unfold stepEncA
  split
  · exact ⟨_, _, rfl⟩
  · exact ⟨s.buf, s.fsm, rfl⟩

theorem roundComplete_writes : ∃ r b a f, roundComplete s = { s with rc := r, bc := b, acc := a, fsm := f } := by
  unfold roundComplete
  split
  · exact ⟨_, s.bc, s.acc, _, rfl⟩
  · unfold roundCompleteCalibrate
    split
    · exact ⟨s.rc, _, _, _, rfl⟩
    · exact ⟨s.rc, _, s.acc, _, rfl⟩

theorem stepEncB_writes :
    ∃ v r b a f, stepEncB inp s = { s with buf := v, rc := r, bc := b, acc := a, fsm := f } := by
  unfold stepEncB
  split
  · obtain ⟨r, b, a, f, h⟩ := roundComplete_writes { s with buf := setBlockB s.buf (encAnswer inp s (blockB s.buf)) }
    exact ⟨_, r, b, a, f, h⟩
  · exact ⟨s.buf, s.rc, s.bc, s.acc, s.fsm, rfl⟩

theorem stepSample_writes : ∃ f, stepSample inp s = { s with fsm := f } := by
  unfold stepSample
  split <;> exact ⟨_, rfl⟩

end

/-- The registers that only some sequencer states write keep their values in every other (R150 to R163). -/
theorem sequencerStep_writes (f : Fsm) (inp : CycleInput) (s : State) {t : State} (ht : sequencerStep f inp s = t) :
    (f ≠ .encA → f ≠ .encB → t.buf = s.buf) ∧
    (f ≠ .finish → f ≠ .fail → t.seed = s.seed ∧ t.seedWmask = s.seedWmask) ∧
    (f ≠ .finish → t.result = s.result ∧ t.done = s.done) ∧
    (f ≠ .fail → t.err = s.err) ∧ (f ≠ .batchCheck → t.sat = s.sat) ∧
    (f ≠ .encB → t.rc = s.rc ∧ t.acc = s.acc) ∧ (f ≠ .batchCheck → f ≠ .encB → t.bc = s.bc) ∧
    (f ≠ .t0 → t.t0 = s.t0) ∧ (f ≠ .keysetup → f ≠ .finish → f ≠ .fail → t.sched = s.sched) := by
  cases f <;> simp only [sequencerStep] at ht
  case idle => simp [← ht]
  case keysetup => obtain ⟨c, g, h⟩ := stepKeysetup_writes inp s; simp [← ht, h]
  case t0 => obtain ⟨c, g, h⟩ := stepT0_writes inp s; simp [← ht, h]
  case batchCheck => obtain ⟨b, c, g, h⟩ := stepBatchCheck_writes s; simp [← ht, h]
  case encA => obtain ⟨b, g, h⟩ := stepEncA_writes inp s; simp [← ht, h]
  case encB => obtain ⟨v, r, b, a, g, h⟩ := stepEncB_writes inp s; simp [← ht, h]
  case sample => obtain ⟨g, h⟩ := stepSample_writes inp s; simp [← ht, h]
  case finish => simp [← ht, stepFinish]
  case fail => simp [← ht, stepFail]

/-! ## What a cycle without reset leaves unchanged -/

/-- Settles O42: a busy cycle's access touches the bus fields only, and each sequencer state writes its own registers. -/
theorem busyStepFrame : Obligations.BusyStepFrame := by
  intro s t hbusy hr hstep
  obtain ⟨u, hu, rfl⟩ := step_without_reset hr hstep
  have hbus := busOnly_of_performAccess (s := beginCycle s) hbusy hu
  have hwrites := sequencerStep_writes s.fsm (cycleInput s) u rfl
  obtain ⟨hbuf, hseed, hbufWmask, hseedWmask, hrounds, hbudget, hresult, hdone, herr, hsat, hie, -, hop, hrc, hbc, hacc,
    ht0, hsched⟩ := engine_fields (busOnly_engine hbus)
  simp only [hbuf, hseed, hseedWmask, hresult, hdone, herr, hsat, hrc, hbc, hacc, ht0, hsched] at hwrites
  obtain ⟨wbuf, wseed, wresult, werr, wsat, wcount, wbc, wt0, wsched⟩ := hwrites
  refine ⟨by simpa, by simpa, by simpa, by simpa, by simpa, wbuf, wseed, wresult, werr, wsat, wcount, wbc, wt0, wsched,
    fun h => ?_, fun h => ?_⟩
  · rw [sequencerStep_wrIgnored]
    cases hbus <;> simp [h]
  · rw [sequencerStep_wrIgnored] at h
    by_contra hno
    push Not at hno
    have := performAccess_wrIgnored hno.2 hu
    simp_all

/-- The host access of an idle cycle, by the access on the bus: the block has no sequencer step (R150). -/
theorem idleAccess_of_step {s t : State} (hf : s.fsm = .idle) (hr : (cycleInput s).rst = false)
    (h : step s = .next t) : IdleAccess (beginCycle s) ((cycleInput s).access.map decode) t := by
  obtain ⟨u, hu, rfl⟩ := step_without_reset hr h
  rw [hf]
  exact idleAccess_of_performAccess hf hu

/-- What the host access of an idle block does to DONE, RESULT, the buffer's mask and the sequencer (R22, R26, R29). -/
theorem idleAccess_rules {i : Option Instr} {s t : State} (h : IdleAccess s i t) :
    (t.done = true → s.done = true) ∧
    (t.result ≠ s.result → ∃ x l, i = some (.cmdClear x l)) ∧
    (∀ k, s.bufWmask.getLsbD k = true → t.bufWmask.getLsbD k = false → ∃ x l, i = some (.cmdClear x l)) ∧
    (t.fsm ≠ s.fsm → argumentsPresent s = true ∧
      ∃ x l, i = some (.cmdTransform x l) ∨ i = some (.cmdCalibrate x l)) := by
  cases h with
  | buf i k data =>
    refine ⟨id, by simp, fun j hs ht => ?_, by simp⟩
    rw [getLsbD_setMaskBit _ _ _ (BitVec.lt_of_getLsbD hs)] at ht
    simp_all
  | clear x l => simp
  | _ => simp_all

/-- Settles O43: an idle block changes by its host access only, a busy one by the sequencer state that owns the
register. -/
theorem onlyTheirRulesWriteTheRegisters : Obligations.OnlyTheirRulesWriteTheRegisters := by
  intro s t hr hstep
  by_cases hf : s.fsm = .idle
  · obtain ⟨hdone, hresult, hmask, hfsm⟩ := idleAccess_rules (idleAccess_of_step hf hr hstep)
    simp only [Option.map_eq_some_iff] at hresult hmask hfsm
    refine ⟨fun h h' => ?_, fun h => .inr ⟨hf, ?_⟩, fun k h h' => ⟨hf, ?_⟩, fun _ h => ?_⟩
    · exact absurd (hdone h') (by simp [h])
    · obtain ⟨x, l, w, hw⟩ := hresult h
      exact ⟨w, x, l, hw⟩
    · obtain ⟨x, l, w, hw⟩ := hmask k h h'
      exact ⟨w, x, l, hw⟩
    · obtain ⟨ha, x, l, hw⟩ := hfsm (by simpa [hf] using h)
      obtain ⟨hbuf, hseed⟩ := (argumentsPresent_iff _).1 ha
      obtain ⟨w, hw, hd⟩ | ⟨w, hw, hd⟩ := hw
      · exact ⟨hbuf, hseed, w, x, l, hw, .inl hd⟩
      · exact ⟨hbuf, hseed, w, x, l, hw, .inr hd⟩
  · obtain ⟨-, -, -, hmask, -, -, -, hresult, -⟩ := busyStepFrame s t hf hr hstep
    refine ⟨fun h h' => ?_, fun h => .inl ?_, fun k h h' => ?_, fun h => absurd h hf⟩
    · by_contra hn
      simp [(hresult hn).2, h] at h'
    · by_contra hn
      exact h (hresult hn).1
    · simp [hmask, h] at h'

/-! ## Reset -/

/-- Settles O39, field by field. -/
theorem resetValues : Obligations.ResetValues := by
  have hbytes : ∀ i, byteAt (0#256) i = 0#8 := fun i => by simp [byteAt]
  refine ⟨fun i _ => ⟨hbytes i, hbytes i⟩, rfl, rfl, rfl, rfl, rfl, by decide, rfl, rfl, rfl, rfl, rfl, rfl, rfl, rfl, rfl,
    fun inp h => ?_⟩
  simp only [ports, h, Bool.false_eq_true, if_false]
  rfl

/-! ## The invariant (R46) -/

/-- The invariant speaks of the engine only. -/
theorem blockInv_of_engine {s t : State} (h : t.engine = s.engine) (hs : BlockInv s) : BlockInv t := by
  have he : BlockInv s.engine := ⟨hs.no_schedule, hs.schedule, hs.arguments, hs.no_outcome, hs.done_or_error,
    hs.saturated, hs.transform_path, hs.transform_start, hs.transform_rounds, hs.transform_finish, hs.calibrate_batch,
    hs.calibrate_acc, hs.unwritten_buf, hs.unwritten_seed⟩
  rw [← h] at he
  exact ⟨he.no_schedule, he.schedule, he.arguments, he.no_outcome, he.done_or_error, he.saturated, he.transform_path,
    he.transform_start, he.transform_rounds, he.transform_finish, he.calibrate_batch, he.calibrate_acc,
    he.unwritten_buf, he.unwritten_seed⟩

/-- Every word that the write mask calls unwritten is zero (R44, R45). -/
def UnwrittenZero (mask : BitVec 8) (v : Bytes32) : Prop :=
  ∀ k : BitVec 3, mask.getLsbD k.toNat = false → wordAt v k = 0#32

theorem unwrittenZero_zero (mask : BitVec 8) : UnwrittenZero mask 0#256 := fun k _ => wordAt_zero k

/-- A fully written array has no unwritten word. -/
theorem unwrittenZero_full (v : Bytes32) : UnwrittenZero 0xFF#8 v := by
  intro k h
  have : ∀ k : BitVec 3, (0xFF#8).getLsbD k.toNat = true := by decide
  simp [this k] at h

/-- A word write and its mask bit keep it. -/
theorem unwrittenZero_setWord {mask : BitVec 8} {v : Bytes32} (h : UnwrittenZero mask v) (k : BitVec 3) (data : Word) :
    UnwrittenZero (setMaskBit mask k) (setWord v k data) := by
  intro l hl
  rw [getLsbD_setMaskBit _ _ _ l.isLt, Bool.or_eq_false_iff, decide_eq_false_iff_not] at hl
  rw [wordAt_setWord, if_neg fun e => hl.1 (congrArg BitVec.toNat e)]
  exact h l hl.2

/-- The invariant of an idle block. -/
theorem blockInv_iff_of_idle {s : State} (hf : s.fsm = .idle) :
    BlockInv s ↔ s.sched = none ∧ (s.done = true → s.err = .none) ∧ (s.sat = true → s.done = true) ∧
      UnwrittenZero s.bufWmask s.buf ∧ UnwrittenZero s.seedWmask s.seed := by
  constructor
  · intro h
    exact ⟨h.no_schedule (.inl hf), h.done_or_error, fun hs => by simpa [hf] using h.saturated hs, h.unwritten_buf,
      h.unwritten_seed⟩
  · intro ⟨hsched, hde, hsat, hbuf, hseed⟩
    constructor <;> simp_all [Fsm.onlyCalibrate, Fsm.inRound, UnwrittenZero]

/-- Settles O40. -/
theorem resetMeetsTheInvariant : Obligations.ResetMeetsTheInvariant :=
  (blockInv_iff_of_idle rfl).2 ⟨rfl, fun _ => rfl, fun h => h, unwrittenZero_zero _, unwrittenZero_zero _⟩

/-- A command just accepted meets the invariant. -/
theorem blockInv_of_accepted {o : Op} {s : State} (h : Accepted o s) : BlockInv s := by
  obtain ⟨hf, hop, hbuf, hseed, ⟨hdone, herr, hsat⟩, hsched, hcount⟩ := h
  have hcounters : (s.op = .transform → s.rc = 0#64) ∧ (s.op = .calibrate → s.acc = 0#64) := by
    cases o
    · exact ⟨fun _ => hcount, by simp [hop]⟩
    · exact ⟨by simp [hop], fun _ => hcount.1⟩
  obtain ⟨hrc, hacc⟩ := hcounters
  exact {
    no_schedule := fun _ => hsched
    schedule := fun _ h => absurd hf h
    arguments := fun _ => ⟨hbuf, hseed⟩
    no_outcome := fun _ => ⟨hdone, herr⟩
    done_or_error := fun _ => herr
    saturated := by simp [hsat]
    transform_path := by simp [hf, Fsm.onlyCalibrate]
    transform_start := fun ho _ => hrc ho
    transform_rounds := by simp [hf, Fsm.inRound]
    transform_finish := by simp [hf]
    calibrate_batch := by simp [hf, Fsm.inRound]
    calibrate_acc := fun ho _ => by simp [hacc ho]
    unwritten_buf := hbuf ▸ unwrittenZero_full _
    unwritten_seed := hseed ▸ unwrittenZero_full _ }

/-- The host access of an idle cycle keeps the invariant. -/
theorem blockInv_of_idleAccess {s t : State} {i : Option Instr} (hf : s.fsm = .idle) (h : BlockInv s)
    (hi : IdleAccess s i t) : BlockInv t := by
  obtain ⟨hsched, hde, hsat, hbuf, hseed⟩ := (blockInv_iff_of_idle hf).1 h
  have idle : ∀ {u : State}, u.fsm = s.fsm → _ → BlockInv u := fun e => (blockInv_iff_of_idle (e.trans hf)).2
  cases hi with
  | kept => exact h
  | read v => exact blockInv_of_engine (s := s) rfl h
  | irqEn | rounds | budget => exact idle rfl ⟨hsched, hde, hsat, hbuf, hseed⟩
  | buf i k data => exact idle rfl ⟨hsched, hde, hsat, unwrittenZero_setWord hbuf k data, hseed⟩
  | seed i k data => exact idle rfl ⟨hsched, hde, hsat, hbuf, unwrittenZero_setWord hseed k data⟩
  | acked | rejected => exact idle rfl ⟨hsched, nofun, nofun, hbuf, hseed⟩
  | clear =>
    exact idle rfl ⟨hsched, nofun, nofun, unwrittenZero_zero _, unwrittenZero_zero _⟩
  | transform x l ha =>
    obtain ⟨mbuf, mseed⟩ := (argumentsPresent_iff s).1 ha
    exact blockInv_of_accepted ⟨rfl, rfl, mbuf, mseed, ⟨rfl, rfl, rfl⟩, hsched, rfl⟩
  | calibrate x l ha =>
    obtain ⟨mbuf, mseed⟩ := (argumentsPresent_iff s).1 ha
    exact blockInv_of_accepted ⟨rfl, rfl, mbuf, mseed, ⟨rfl, rfl, rfl⟩, hsched, rfl, rfl⟩

/-! ### Inside a command -/

/-- What every state of a command holds from the answer to its key setup on (R22, R23, R46, R130). -/
structure KeyedCommand (s : State) : Prop where
  sched : s.sched = some s.seed
  buf_written : s.bufWmask = 0xFF#8
  seed_written : s.seedWmask = 0xFF#8
  done : s.done = false
  err : s.err = .none

/-- Where a command with its schedule stands: its counters, by the command and the sequencer states on its path (R39,
R46, R156, R158). -/
def Progress (s : State) : Prop :=
  match s.op, s.fsm with
  | .transform, .encA | .transform, .encB => s.sat = false ∧ s.rc < s.rounds
  | .transform, .finish => s.sat = false ∧ s.rc = s.rounds
  | .calibrate, .t0 | .calibrate, .batchCheck | .calibrate, .sample | .calibrate, .fail =>
    s.sat = false ∧ s.acc.toNat % 8 = 0
  | .calibrate, .encA | .calibrate, .encB =>
    s.sat = false ∧ s.acc.toNat % 8 = 0 ∧ s.bc.toNat < 8 ∧ s.acc.toNat + 8 ≤ 2 ^ 64 - 1
  | .calibrate, .finish => s.acc.toNat % 8 = 0
  | _, _ => False

/-- The invariant of a command that has its schedule gives where it stands. -/
theorem progress_of_blockInv {s : State} (h : BlockInv s) (hi : s.fsm ≠ .idle) (hk : s.fsm ≠ .keysetup) :
    Progress s := by
  have hsat : s.sat = true → s.fsm = .finish ∧ s.op = .calibrate := by
    simpa [(h.no_outcome hi).1] using h.saturated
  unfold Progress
  cases ho : s.op
  case transform =>
    have hunsat : s.sat = false := by simpa [ho] using hsat
    have hpath := h.transform_path ho
    cases hf : s.fsm
    case idle => exact hi hf
    case keysetup => exact hk hf
    case encA | encB => exact ⟨hunsat, h.transform_rounds ho (by simp [hf, Fsm.inRound])⟩
    case finish => exact ⟨hunsat, h.transform_finish ho hf⟩
    case t0 | batchCheck | sample | fail => simp [hf, Fsm.onlyCalibrate] at hpath
  case calibrate =>
    have hacc := h.calibrate_acc ho hi
    cases hf : s.fsm
    case idle => exact hi hf
    case keysetup => exact hk hf
    case encA | encB => exact ⟨by simpa [hf] using hsat, hacc, h.calibrate_batch ho (by simp [hf, Fsm.inRound])⟩
    case finish => exact hacc
    case t0 | batchCheck | sample | fail => exact ⟨by simpa [hf] using hsat, hacc⟩

theorem keyedCommand_of_blockInv {s : State} (h : BlockInv s) (hi : s.fsm ≠ .idle) (hk : s.fsm ≠ .keysetup) :
    KeyedCommand s :=
  ⟨h.schedule hi hk, (h.arguments hi).1, (h.arguments hi).2, (h.no_outcome hi).1, (h.no_outcome hi).2⟩

theorem blockInv_of_progress {s : State} (hk : KeyedCommand s) (hp : Progress s) : BlockInv s := by
  obtain ⟨hsched, mbuf, mseed, hdone, herr⟩ := hk
  exact {
    no_schedule := fun h => by rcases h with h | h <;> simp [Progress, h] at hp
    schedule := fun _ _ => hsched
    arguments := fun _ => ⟨mbuf, mseed⟩
    no_outcome := fun _ => ⟨hdone, herr⟩
    done_or_error := fun _ => herr
    saturated := fun hs => by
      cases ho : s.op <;> cases hf : s.fsm <;> simp_all [Progress]
    transform_path := fun ho => by cases hf : s.fsm <;> simp_all [Progress, Fsm.onlyCalibrate]
    transform_start := fun _ h => by simp [Progress, h] at hp
    transform_rounds := fun ho h => by cases hf : s.fsm <;> simp_all [Progress, Fsm.inRound]
    transform_finish := fun ho h => by simp_all [Progress]
    calibrate_batch := fun ho h => by cases hf : s.fsm <;> simp_all [Progress, Fsm.inRound, Config.batchSize]
    calibrate_acc := fun ho h => by cases hf : s.fsm <;> simp_all [Progress, Config.batchSize]
    unwritten_buf := mbuf ▸ unwrittenZero_full _
    unwritten_seed := mseed ▸ unwrittenZero_full _ }

/-! ### The arithmetic of a batch (R3, R158, R159) -/

theorem toNat_add_batchCount {a : Count} (h : a.toNat + 8 ≤ 2 ^ 64 - 1) : (a + batchCount).toNat = a.toNat + 8 := by
  rw [BitVec.toNat_add]
  exact Nat.mod_eq_of_lt (by simp only [batchCount, Config.batchSize, BitVec.toNat_ofNat]; omega)

/-- BATCH_CHECK's comparison, without subtraction. -/
theorem batch_fits_iff (a : Count) : ¬ maxCount - batchCount < a ↔ a.toNat + 8 ≤ 2 ^ 64 - 1 := by
  simp only [maxCount, batchCount, Config.batchSize, BitVec.lt_def]
  rw [show (BitVec.allOnes 64 - BitVec.ofNat 64 8).toNat = 2 ^ 64 - 9 by decide]
  omega

theorem toNat_add_one_of_lt_batch {b : BitVec 4} (h : b.toNat < 8) : (b + 1#4).toNat = b.toNat + 1 := by
  rw [BitVec.toNat_add]
  exact Nat.mod_eq_of_lt (by simp only [BitVec.toNat_ofNat]; omega)

/-- The eighth round of a batch is the one at position 7. -/
theorem add_one_eq_batchPosition_iff (b : BitVec 4) : b + 1#4 = batchPosition ↔ b.toNat = 7 := by
  decide +revert

/-! ### The sequencer's step keeps the invariant, state by state -/

/-- Between the answer to key setup and the end of a command no step touches what the command runs on. -/
theorem keyedCommand_sequencerStep {f : Fsm} {inp : CycleInput} {s : State} (h : KeyedCommand s) (hk : f ≠ .keysetup)
    (hfinish : f ≠ .finish) (hfail : f ≠ .fail) : KeyedCommand (sequencerStep f inp s) := by
  obtain ⟨-, hseed, hdone, herr, -, -, -, -, hsched⟩ := sequencerStep_writes f inp s rfl
  obtain ⟨eseed, eseedWmask⟩ := hseed hfinish hfail
  constructor
  case sched => rw [hsched hk hfinish hfail, eseed, h.sched]
  case buf_written => rw [sequencerStep_bufWmask, h.buf_written]
  case seed_written => rw [eseedWmask, h.seed_written]
  case done => rw [(hdone hfinish).2, h.done]
  case err => rw [herr hfail, h.err]

section
variable {s : State} (inp : CycleInput)

theorem blockInv_stepKeysetup (h : BlockInv s) (hf : s.fsm = .keysetup) : BlockInv (stepKeysetup inp s) := by
  obtain ⟨mbuf, mseed⟩ := h.arguments (by simp [hf])
  obtain ⟨hdone, herr⟩ := h.no_outcome (by simp [hf])
  have hsat : s.sat = false := by simpa [hf, hdone] using h.saturated
  unfold stepKeysetup
  split
  · refine blockInv_of_progress ⟨rfl, mbuf, mseed, hdone, herr⟩ ?_
    cases ho : s.op with
    | transform =>
      have hrc : s.rc = 0#64 := h.transform_start ho hf
      by_cases hr : s.rounds = 0#64
      · simp [Progress, hr, hrc, hsat]
      · have hlt : 0#64 < s.rounds := by bv_omega
        simp [Progress, hr, hrc, hsat, hlt]
    | calibrate =>
      have hacc := h.calibrate_acc ho (by simp [hf])
      simp only [Progress]
      exact ⟨hsat, hacc⟩
  · exact h

theorem progress_stepT0 (h : Progress s) (hf : s.fsm = .t0) : Progress (stepT0 inp s) := by
  cases ho : s.op <;> simp only [Progress, ho, hf] at h
  unfold stepT0
  split <;> simp [Progress, ho, h]

theorem progress_stepBatchCheck (h : Progress s) (hf : s.fsm = .batchCheck) : Progress (stepBatchCheck s) := by
  cases ho : s.op <;> simp only [Progress, ho, hf] at h
  obtain ⟨hsat, hacc⟩ := h
  unfold stepBatchCheck
  split
  case isTrue => simp [Progress, ho, hacc]
  case isFalse hfits =>
    simp only [Progress, ho]
    exact ⟨hsat, hacc, by simp, (batch_fits_iff s.acc).1 hfits⟩

theorem progress_stepEncA (h : Progress s) (hf : s.fsm = .encA) : Progress (stepEncA inp s) := by
  unfold stepEncA
  split
  · cases ho : s.op <;> simpa [Progress, ho, hf] using h
  · exact h

theorem progress_roundCompleteTransform (ho : s.op = .transform) (hsat : s.sat = false) (hrc : s.rc < s.rounds) :
    Progress (roundCompleteTransform s) := by
  unfold roundCompleteTransform
  by_cases hlast : s.rc + 1#64 = s.rounds
  · simp [Progress, ho, hlast, hsat]
  · have : s.rc + 1#64 < s.rounds := by bv_omega
    simp [Progress, ho, hlast, hsat, this]

theorem progress_roundCompleteCalibrate (ho : s.op = .calibrate) (hsat : s.sat = false) (hacc : s.acc.toNat % 8 = 0)
    (hbc : s.bc.toNat < 8) (hroom : s.acc.toNat + 8 ≤ 2 ^ 64 - 1) : Progress (roundCompleteCalibrate s) := by
  unfold roundCompleteCalibrate
  split
  case isTrue hlast =>
    have hacc' : (s.acc + batchCount).toNat % 8 = 0 := by rw [toNat_add_batchCount hroom]; omega
    simp only [Progress, ho]
    exact ⟨hsat, hacc'⟩
  case isFalse hmore =>
    rw [add_one_eq_batchPosition_iff] at hmore
    have hbc' : (s.bc + 1#4).toNat < 8 := by rw [toNat_add_one_of_lt_batch hbc]; omega
    simp only [Progress, ho]
    exact ⟨hsat, hacc, hbc', hroom⟩

theorem progress_stepEncB (h : Progress s) (hf : s.fsm = .encB) : Progress (stepEncB inp s) := by
  unfold stepEncB
  split
  · cases ho : s.op <;> simp only [Progress, ho, hf] at h <;> simp only [roundComplete]
    case transform => exact progress_roundCompleteTransform rfl h.1 h.2
    case calibrate =>
      obtain ⟨hsat, hacc, hbc, hroom⟩ := h
      exact progress_roundCompleteCalibrate rfl hsat hacc hbc hroom
  · exact h

theorem progress_stepSample (h : Progress s) (hf : s.fsm = .sample) : Progress (stepSample inp s) := by
  cases ho : s.op <;> simp only [Progress, ho, hf] at h
  unfold stepSample
  split
  case h_1 => simp [Progress, ho, h]
  case h_2 t _ => by_cases hup : s.budget ≤ elapsed s t <;> simp [Progress, ho, h, hup]

/-- A command's end leaves the buffer as it is and wipes the seed and the schedule (R162, R163). -/
theorem blockInv_endCommand (hde : s.done = true → s.err = .none) (hsat : s.sat = true → s.done = true)
    (hbuf : s.bufWmask = 0xFF#8) : BlockInv (endCommand s) :=
  (blockInv_iff_of_idle rfl).2 ⟨rfl, hde, hsat, by simpa [hbuf] using unwrittenZero_full _, unwrittenZero_zero _⟩

/-- The sequencer's step keeps the invariant. -/
theorem blockInv_sequencerStep (h : BlockInv s) : BlockInv (sequencerStep s.fsm inp s) := by
  have moves : s.fsm ≠ .idle → s.fsm ≠ .keysetup → s.fsm ≠ .finish → s.fsm ≠ .fail →
      (Progress s → Progress (sequencerStep s.fsm inp s)) → BlockInv (sequencerStep s.fsm inp s) :=
    fun hi hk hfinish hfail step =>
      blockInv_of_progress (keyedCommand_sequencerStep (keyedCommand_of_blockInv h hi hk) hk hfinish hfail)
        (step (progress_of_blockInv h hi hk))
  cases hf : s.fsm <;> simp only [hf, ne_eq, reduceCtorEq, not_false_eq_true, true_implies, sequencerStep] at moves ⊢
  case idle => exact h
  case keysetup => exact blockInv_stepKeysetup inp h hf
  case t0 => exact moves fun hp => progress_stepT0 inp hp hf
  case batchCheck => exact moves fun hp => progress_stepBatchCheck hp hf
  case encA => exact moves fun hp => progress_stepEncA inp hp hf
  case encB => exact moves fun hp => progress_stepEncB inp hp hf
  case sample => exact moves fun hp => progress_stepSample inp hp hf
  case finish =>
    have hk := keyedCommand_of_blockInv h (by simp [hf]) (by simp [hf])
    exact blockInv_endCommand (fun _ => hk.err) (fun _ => rfl) hk.buf_written
  case fail =>
    have hk := keyedCommand_of_blockInv h (by simp [hf]) (by simp [hf])
    have hsat : s.sat = true → s.done = true := by simpa [hf] using h.saturated
    exact blockInv_endCommand (by simp [hk.done]) hsat hk.buf_written

end

/-- Settles O41: reset restores the reset state, an idle block changes by its host access, a busy one by its sequencer. -/
theorem stepKeepsTheInvariant : Obligations.StepKeepsTheInvariant := by
  intro s t h hstep
  cases hr : (cycleInput s).rst with
  | true =>
    cases (step_of_reset hr).symm.trans hstep
    exact blockInv_of_engine (s := State.reset) rfl resetMeetsTheInvariant
  | false =>
    by_cases hf : s.fsm = .idle
    · have hbegin : BlockInv (beginCycle s) := blockInv_of_engine (s := s) rfl h
      exact blockInv_of_idleAccess (s := beginCycle s) hf hbegin (idleAccess_of_step hf hr hstep)
    · obtain ⟨u, hu, rfl⟩ := step_without_reset hr hstep
      have he := busOnly_engine (busOnly_of_performAccess (s := beginCycle s) hf hu)
      rw [show s.fsm = u.fsm from (congrArg State.fsm he).symm]
      exact blockInv_sequencerStep _ (blockInv_of_engine he h)

/-! ## The buffer of a running command (R46, R169) -/

/-- The rounds a command has completed: the count it reports, and inside a batch of CALIBRATE `bc` more. -/
def completedRounds (s : State) : Nat :=
  match s.op with
  | .transform => s.rc.toNat
  | .calibrate => if s.fsm.inRound then s.acc.toNat + s.bc.toNat else s.acc.toNat

theorem completedRounds_of_not_inRound {s : State} (h : s.fsm.inRound = false) :
    completedRounds s = (commandCount s).toNat := by
  cases ho : s.op <;> simp [completedRounds, commandCount, ho, h]

/-- The buffer of a command with the key `k` that began on the buffer `buf`: that of its completed rounds, and in ENC_B
block A is one encryption ahead. -/
def HoldsRounds (k : Bytes32) (buf : Bytes32) (s : State) : Prop :=
  match s.fsm with
  | .encB => s.buf = setBlockA (afterRounds k (completedRounds s) buf)
      (Config.encPow k (completedRounds s + 1) (blockA buf))
  | _ => s.buf = afterRounds k (completedRounds s) buf

theorem holdsRounds_iff_of_not_encB {k buf : Bytes32} {s : State} (hf : s.fsm ≠ .encB) :
    HoldsRounds k buf s ↔ s.buf = afterRounds k (completedRounds s) buf := by
  cases h : s.fsm <;> simp_all [HoldsRounds]

theorem holdsRounds_iff_of_not_inRound {k buf : Bytes32} {s : State} (hf : s.fsm.inRound = false) :
    HoldsRounds k buf s ↔ s.buf = afterRounds k (commandCount s).toNat buf := by
  rw [holdsRounds_iff_of_not_encB (fun h => by simp [h, Fsm.inRound] at hf), completedRounds_of_not_inRound hf]

theorem afterRounds_zero (k buf : Bytes32) : afterRounds k 0 buf = buf := joinBlocks_blocks buf

/-- A round encrypts block A, then block B (R154, R155). -/
theorem setBlockB_setBlockA_afterRounds (k : Bytes32) (n : Nat) (buf : Bytes32) :
    setBlockB (setBlockA (afterRounds k n buf) (Config.encPow k (n + 1) (blockA buf)))
      (Config.encPow k (n + 1) (blockB buf)) = afterRounds k (n + 1) buf := by
  simp [setBlockB, afterRounds]

/-- The end of a round counts it (R155, R156, R159). -/
theorem completedRounds_roundComplete {s : State} (h : Progress s) (hf : s.fsm = .encB) :
    completedRounds (roundComplete s) = completedRounds s + 1 := by
  cases ho : s.op <;> simp only [Progress, ho, hf] at h
  case transform =>
    simp only [roundComplete, roundCompleteTransform, completedRounds, ho]
    bv_omega
  case calibrate =>
    obtain ⟨-, -, hbc, hroom⟩ := h
    simp only [roundComplete, ho, roundCompleteCalibrate]
    split
    case isTrue hlast =>
      rw [add_one_eq_batchPosition_iff] at hlast
      simp [completedRounds, ho, hf, Fsm.inRound, toNat_add_batchCount hroom, hlast]
    case isFalse hmore =>
      simp [completedRounds, ho, hf, Fsm.inRound, toNat_add_one_of_lt_batch hbc, Nat.add_assoc, -BitVec.toNat_add]

theorem roundComplete_fsm_ne_encB (s : State) : (roundComplete s).fsm ≠ .encB := by
  unfold roundComplete roundCompleteTransform roundCompleteCalibrate
  split
  · simp only; split <;> simp
  · split <;> simp

section
variable {k buf : Bytes32} {inp : CycleInput} {s : State}

/-- A dutiful core's answer to block A puts it one encryption ahead. -/
theorem holdsRounds_stepEncA (hout : inp.encOut = none) (hsched : s.sched = some k) (hf : s.fsm = .encA)
    (h : HoldsRounds k buf s) : HoldsRounds k buf (stepEncA inp s) := by
  unfold stepEncA
  split
  · have hbuf : s.buf = afterRounds k (completedRounds s) buf := (holdsRounds_iff_of_not_encB (by simp [hf])).1 h
    have hcount : ∀ b, completedRounds { s with buf := b, fsm := .encB } = completedRounds s := fun b => by
      simp [completedRounds, hf, Fsm.inRound]
    simp only [HoldsRounds, hcount]
    rw [encAnswer_dutiful _ hout hsched, hbuf]
    simp [afterRounds, Config.encPow]
  · exact h

/-- A dutiful core's answer to block B completes the round. -/
theorem holdsRounds_stepEncB (hout : inp.encOut = none) (hsched : s.sched = some k) (hf : s.fsm = .encB)
    (hp : Progress s) (h : HoldsRounds k buf s) : HoldsRounds k buf (stepEncB inp s) := by
  unfold stepEncB
  split
  · simp only [HoldsRounds, hf] at h
    have hanswer : encAnswer inp s (blockB s.buf) = Config.encPow k (completedRounds s + 1) (blockB buf) := by
      rw [encAnswer_dutiful _ hout hsched, h]
      simp [afterRounds, Config.encPow]
    have hcount : ∀ b, completedRounds (roundComplete { s with buf := b }) = completedRounds s + 1 :=
      fun b => completedRounds_roundComplete (s := { s with buf := b }) hp hf
    have hbuf : ∀ b, (roundComplete { s with buf := b }).buf = b := fun b => by
      obtain ⟨_, _, _, _, e⟩ := roundComplete_writes { s with buf := b }
      rw [e]
    rw [holdsRounds_iff_of_not_encB (roundComplete_fsm_ne_encB _), hcount, hbuf, hanswer, h]
    exact setBlockB_setBlockA_afterRounds k (completedRounds s) buf
  · exact h

/-- Outside the rounds a step that leaves the buffer and the command's count alone keeps the buffer. -/
theorem holdsRounds_of_unchanged (h : HoldsRounds k buf s) (hs : s.fsm.inRound = false) {t : State}
    (ht : t.fsm.inRound = false) (hbuf : t.buf = s.buf) (hcount : commandCount t = commandCount s) :
    HoldsRounds k buf t := by
  rw [holdsRounds_iff_of_not_inRound hs] at h
  rw [holdsRounds_iff_of_not_inRound ht, hbuf, hcount, h]

theorem holdsRounds_stepKeysetup (hf : s.fsm = .keysetup) (h : HoldsRounds k buf s) :
    HoldsRounds k buf (stepKeysetup inp s) := by
  have hs : s.fsm.inRound = false := by simp [hf, Fsm.inRound]
  unfold stepKeysetup
  split
  · cases ho : s.op
    case transform =>
      by_cases hr : s.rounds = 0#64
      · exact holdsRounds_of_unchanged h hs (by simp [hr, Fsm.inRound]) rfl (by simp [commandCount, ho])
      · rw [holdsRounds_iff_of_not_inRound hs] at h
        simpa [HoldsRounds, completedRounds, commandCount, ho, hr] using h
    case calibrate => exact holdsRounds_of_unchanged h hs rfl rfl (by simp [commandCount, ho])
  · exact h

/-- A batch begins with none of its rounds completed (R158). -/
theorem holdsRounds_stepBatchCheck (hf : s.fsm = .batchCheck) (h : HoldsRounds k buf s) :
    HoldsRounds k buf (stepBatchCheck s) := by
  have hs : s.fsm.inRound = false := by simp [hf, Fsm.inRound]
  unfold stepBatchCheck
  split
  · exact holdsRounds_of_unchanged h hs rfl rfl rfl
  · rw [holdsRounds_iff_of_not_inRound hs] at h
    cases ho : s.op <;> simpa [HoldsRounds, completedRounds, commandCount, ho] using h

/-- With a dutiful core every step of a command keeps the buffer that of its rounds. -/
theorem holdsRounds_sequencerStep (hout : inp.encOut = none) (hinv : BlockInv s) (hseed : s.fsm ≠ .idle → s.seed = k)
    (h : HoldsRounds k buf s) : HoldsRounds k buf (sequencerStep s.fsm inp s) := by
  have keyed : s.fsm ≠ .idle → s.fsm ≠ .keysetup → s.sched = some k := fun hi hk => by
    rw [hinv.schedule hi hk, hseed hi]
  cases hf : s.fsm <;> simp only [hf, ne_eq, reduceCtorEq, not_false_eq_true, true_implies] at keyed
  case idle => exact h
  case keysetup => exact holdsRounds_stepKeysetup hf h
  case encA => exact holdsRounds_stepEncA hout keyed hf h
  case encB =>
    exact holdsRounds_stepEncB hout keyed hf (progress_of_blockInv hinv (by simp [hf]) (by simp [hf])) h
  case t0 =>
    have hs : s.fsm.inRound = false := by simp [hf, Fsm.inRound]
    simp only [sequencerStep, stepT0]
    split <;> exact holdsRounds_of_unchanged h hs rfl rfl rfl
  case batchCheck => exact holdsRounds_stepBatchCheck hf h
  case sample =>
    have hs : s.fsm.inRound = false := by simp [hf, Fsm.inRound]
    simp only [sequencerStep, stepSample]
    split
    case h_1 => exact holdsRounds_of_unchanged h hs rfl rfl rfl
    case h_2 t _ =>
      exact holdsRounds_of_unchanged h hs (by by_cases hup : s.budget ≤ elapsed s t <;> simp [hup, Fsm.inRound]) rfl rfl
  case finish | fail => exact holdsRounds_of_unchanged h (by simp [hf, Fsm.inRound]) rfl rfl rfl

end

/-- What holds along the run of the command `o`, accepted in `s`, with a dutiful core. -/
structure DutifulRun (o : Op) (s u : State) : Prop where
  op : u.op = o
  inv : BlockInv u
  seed : u.fsm ≠ .idle → u.seed = s.seed
  buf : HoldsRounds s.seed s.buf u

theorem dutifulRun_of_accepted {o : Op} {s : State} (h : Accepted o s) : DutifulRun o s s where
  op := h.op
  inv := blockInv_of_accepted h
  seed := fun _ => rfl
  buf := by
    have hcount : completedRounds s = 0 := by
      have hc := h.counters
      cases o <;> simp_all [completedRounds, h.op, h.fsm, Fsm.inRound]
    rw [holdsRounds_iff_of_not_encB (by simp [h.fsm]), hcount, afterRounds_zero]

/-- The seed outlives every cycle but a command's last (R162, R163). -/
theorem sequencerStep_seed {f : Fsm} {inp : CycleInput} {s : State} (h : (sequencerStep f inp s).fsm ≠ .idle) :
    (sequencerStep f inp s).seed = s.seed := by
  obtain ⟨-, hseed, -⟩ := sequencerStep_writes f inp s rfl
  refine (hseed ?_ ?_).1
  all_goals rintro rfl; exact h rfl

theorem dutifulRun_step {o : Op} {s u v : State} {p : Fsm} (h : DutifulRun o s u) (henv : dutiful p u)
    (hbusy : u.fsm ≠ .idle) (hstep : step u = .next v) : DutifulRun o s v := by
  obtain ⟨hr, hout⟩ := henv
  have hinv := stepKeepsTheInvariant u v h.inv hstep
  obtain ⟨w, hw, rfl⟩ := step_without_reset hr hstep
  have hbus := busOnly_of_performAccess (s := beginCycle u) hbusy hw
  have hrun : DutifulRun o s w := by
    obtain ⟨hop, hi, hseed, hbuf⟩ := h
    have hi' := blockInv_of_engine (busOnly_engine hbus) hi
    cases hbus <;> exact ⟨hop, hi', hseed, hbuf⟩
  have hfsm : u.fsm = w.fsm := by cases hbus <;> rfl
  rw [hfsm] at hbusy hinv ⊢
  exact {
    op := (sequencerStep_op _ _ _).trans hrun.op
    inv := hinv
    seed := fun hi => (sequencerStep_seed hi).trans (hrun.seed hbusy)
    buf := holdsRounds_sequencerStep hout hrun.inv hrun.seed hrun.buf }

/-- Every state of a command's run with a dutiful core. -/
theorem dutifulRun_of_busyRun {o : Op} {p : Fsm} {s t : State} {events : List PortEvent} {n : Nat} (ha : Accepted o s)
    (run : BusyRun dutiful p s events n t) : DutifulRun o s t :=
  let ⟨_, h⟩ := busyRun_forward (fun _ _ _ u => DutifulRun o s u)
    (fun _ _ _ _ _ h henv hbusy hstep => dutifulRun_step h henv hbusy hstep) run [] 0 (dutifulRun_of_accepted ha)
  h

/-- Settles O46, by the invariant of a dutiful run. -/
theorem runningBufferHoldsItsRounds : Obligations.RunningBufferHoldsItsRounds := by
  intro o p s t events n ha run hf
  have h := dutifulRun_of_busyRun ha run
  have hcount : completedRounds t = if o = .transform then t.rc.toNat else t.acc.toNat + t.bc.toNat := by
    cases o <;> simp [completedRounds, h.op, hf, Fsm.inRound]
  rw [← hcount]
  exact (holdsRounds_iff_of_not_encB (by simp [hf])).1 h.buf

end Sys2Proof.Machine
end

section
/-! SUPPORT. Proofs about the host's accesses and what they show (spec/20_memory.md): the access of a cycle, which bits of
an access word take part, the cipher port, STATUS from a command's acceptance on, and what of a running command no host
access can tell. -/

namespace Sys2Proof.Machine

/-! ## Every access completes -/

/-- Every instruction has a next state in every state (R76, R200). -/
theorem exec_completes (i : Instr) (s : State) : ∃ t, exec i s = .next t := by
  cases i <;> exact ⟨_, rfl⟩

/-- A write instruction performed on a busy block is dropped (R102). -/
theorem exec_of_busy_write {i : Instr} {s : State} (hi : i.isRead = false) (hb : s.busy = true) :
    exec i s = .next (dropWrite s) := by
  cases i
  case rdCmd | rdStatus | rdIrqEn | rdRoundsLo | rdRoundsHi | rdBudgetLo | rdBudgetHi | rdResultLo | rdResultHi |
    rdBuf | rdSeed | rdReserved0C | rdReserved282C | rdReserved303C | rdReserved80FC => cases hi
  all_goals exact congrArg Host.Outcome.next (busWrite_of_busy hb)

/-- A cycle without reset, from its access on: the sequencer's step takes effect after it (R61). -/
theorem step_of_performAccess {s u : State} (hr : (cycleInput s).rst = false)
    (h : performAccess (cycleInput s).access (beginCycle s) = .next u) :
    step s = .next (sequencerStep s.fsm (cycleInput s) u) := by
  simp [step, clockCycle, hr, h]

/-- Settles O10: a word with `we = 0` is decoded to a read, and a read returns a word. -/
theorem readsHaveNoSideEffects : Obligations.ReadsHaveNoSideEffects := by
  intro w s hwe
  exact exec_of_isRead (by simp [isRead_decode, hwe]) s

/-- Settles O22: the access of the cycle completes, and the sequencer's step leaves the bus fields alone. -/
theorem stepPerformsTheAccess : Obligations.StepPerformsTheAccess := by
  intro s inp rest w hscript hrst haccess
  have hbegin : beginCycle s = { s with script := rest, cycle := s.cycle + 1, busRead := none } := by
    simp [beginCycle, hscript]
  rw [← hbegin]
  obtain ⟨t, ht⟩ := exec_completes (decode w) (beginCycle s)
  have hstep : step s = .next (sequencerStep s.fsm inp t) := by
    rw [← cycleInput_of_script hscript] at hrst haccess ⊢
    exact step_of_performAccess hrst (by rw [haccess]; exact ht)
  refine ⟨t, ht, hstep, fun hidle => ?_, fun u hu => ?_⟩
  · rw [hstep, hidle]
    rfl
  · cases hstep.symm.trans hu
    exact ⟨sequencerStep_busRead .., sequencerStep_wrIgnored ..⟩

/-! ## The bits of an access word that take no part (R52, R71, R72) -/

/-- Equal command codes have the same effect: the other bits of the word take no part (R71). -/
theorem exec_decodeCommand_eq {data data' : Word} (h : data.extractLsb' 0 4 = data'.extractLsb' 0 4)
    (lane lane' : BitVec 2) (s : State) :
    exec (decodeCommand data lane) s = exec (decodeCommand data' lane') s := by
  simp only [decodeCommand, h, apply_ite (exec · s)]
  rfl

/-- A read is selected by `off[7:2]` (R52, R72). -/
theorem exec_decodeRead_eq (word : BitVec 6) (lane lane' : BitVec 2) (s : State) :
    exec (decodeRead word lane) s = exec (decodeRead word lane') s := by
  simp only [decodeRead, offIn282C_append, offIn303C_append, apply_ite (exec · s)]
  rfl

/-- A write of given data is selected by `off[7:2]` (R52, R72). -/
theorem exec_decodeWrite_eq (word : BitVec 6) (lane lane' : BitVec 2) (data : Word) (s : State) :
    exec (decodeWrite word lane data) s = exec (decodeWrite word lane' data) s := by
  simp only [decodeWrite, offIn282C_append, offIn303C_append, apply_ite (exec · s),
    exec_decodeCommand_eq (data := data) rfl lane lane' s]
  rfl

/-- Settles O4, for reads, command writes and other writes. -/
theorem ignoredBitsHaveNoEffect : Obligations.IgnoredBitsHaveNoEffect := by
  intro w w' s hwe hword hcode hdata
  unfold decode
  rw [← hwe, ← hword]
  by_cases hw : w.we = 1#1
  · rw [if_pos hw, if_pos hw]
    by_cases hcmd : w.word = 0#6
    · rw [hcmd, decodeWrite_command, decodeWrite_command]
      exact exec_decodeCommand_eq (hcode hw hcmd) _ _ s
    · rw [← hdata hw hcmd]
      exact exec_decodeWrite_eq ..
  · rw [if_neg hw, if_neg hw]
    exact exec_decodeRead_eq ..

/-! ## The cipher port (R170 to R172) -/

/-- A key setup is requested in KEYSETUP, with the seed (R151). -/
theorem setupRequest_eq_some_iff (s : State) (key : Bytes32) :
    setupRequest s = some key ↔ s.fsm = .keysetup ∧ s.seed = key := by
  cases hf : s.fsm <;> simp [setupRequest, hf]

/-- An encryption is requested in ENC_A, with block A, and in ENC_B, with block B (R154, R155). -/
theorem encryptRequest_eq_some_iff (s : State) (b : Bytes16) :
    encryptRequest s = some b ↔ s.fsm = .encA ∧ blockA s.buf = b ∨ s.fsm = .encB ∧ blockB s.buf = b := by
  cases hf : s.fsm <;> simp [encryptRequest, hf]

/-- The outputs of a cycle without reset. -/
theorem ports_of_noReset {inp : CycleInput} (hr : inp.rst = false) (s : State) :
    ports inp s = { setup := setupRequest s, encrypt := encryptRequest s,
                    schedClear := s.fsm == .finish || s.fsm == .fail, irq := s.irq } := by
  simp [ports, hr]

/-- Settles O36, by the two requests. -/
theorem portRequestsFollowTheSequencer : Obligations.PortRequestsFollowTheSequencer := by
  intro inp s hr
  simp only [ports_of_noReset hr, Option.ne_none_iff_exists', setupRequest_eq_some_iff, encryptRequest_eq_some_iff]
  refine ⟨by simp, ?_, by simp [exists_or], ?_, ?_, ?_, by simp⟩
  · rintro key ⟨-, rfl⟩ i -
    rfl
  · rintro b hf (⟨-, rfl⟩ | ⟨hf', -⟩) i hi
    · exact byteAt_blockA _ _ hi
    · cases hf.symm.trans hf'
  · rintro b hf (⟨hf', -⟩ | ⟨-, rfl⟩) i hi
    · cases hf.symm.trans hf'
    · exact byteAt_blockB _ _ hi
  · cases hf : s.fsm <;> simp [setupRequest, encryptRequest, hf]

/-! ## STATUS from a command's acceptance on (R62, R240) -/

/-- The bits of STATUS, from its fields put together (R105). -/
theorem getLsbD_statusWord (s : State) (i : Nat) :
    (statusWord s).getLsbD i = (0#8 ++ s.seedWmask ++ s.bufWmask ++ 0#1 ++ BitVec.ofBool s.wrIgnored ++
      BitVec.ofBool s.sat ++ s.err.bits ++ BitVec.ofBool s.done ++ BitVec.ofBool s.busy).getLsbD i := rfl

theorem statusWord_busy (s : State) : (statusWord s).getLsbD 0 = s.busy := by
  rw [getLsbD_statusWord, BitVec.getLsbD_append]
  simp

theorem statusWord_done (s : State) : (statusWord s).getLsbD 1 = s.done := by
  simp only [getLsbD_statusWord, BitVec.getLsbD_append]
  simp

theorem statusWord_err (s : State) : (statusWord s).extractLsb' 2 3 = s.err.bits := by
  apply BitVec.eq_of_getLsbD_eq
  intro i hi
  simp only [BitVec.getLsbD_extractLsb', getLsbD_statusWord, BitVec.getLsbD_append]
  simp [hi, show ¬ (2 + i < 1) by omega, show ¬ (1 + i < 1) by omega, show 2 + i - 1 = 1 + i by omega]

/-- Code 0 stands for no error alone (R201). -/
theorem errCode_bits_eq_zero_iff (e : ErrCode) : e.bits = 0#3 ↔ e = .none := by
  cases e <;> decide

/-- After a round the sequencer finishes, samples the time or begins the next round (R156, R159). -/
theorem roundComplete_fsm (s : State) :
    (roundComplete s).fsm = .finish ∨ (roundComplete s).fsm = .sample ∨ (roundComplete s).fsm = .encA := by
  unfold roundComplete roundCompleteTransform roundCompleteCalibrate
  split
  · by_cases hlast : s.rc + 1#64 = s.rounds <;> simp [hlast]
  · split <;> simp

/-- Only FINISH and FAIL end a command (R150). -/
theorem sequencerStep_fsm_ne_idle (inp : CycleInput) {s : State} (hi : s.fsm ≠ .idle) (hfinish : s.fsm ≠ .finish)
    (hfail : s.fsm ≠ .fail) : (sequencerStep s.fsm inp s).fsm ≠ .idle := by
  cases hf : s.fsm <;> simp only [sequencerStep]
  case idle => exact absurd hf hi
  case keysetup =>
    unfold stepKeysetup
    split
    · cases s.op
      case transform => by_cases hr : s.rounds = 0#64 <;> simp [hr]
      case calibrate => simp
    · exact hi
  case t0 => unfold stepT0; split <;> simp [raiseError]
  case batchCheck => unfold stepBatchCheck; split <;> simp
  case encA => unfold stepEncA; split <;> simp [hf]
  case encB =>
    unfold stepEncB
    split
    · obtain h | h | h := roundComplete_fsm { s with buf := setBlockB s.buf (encAnswer inp s (blockB s.buf)) } <;>
        simp [h]
    · exact hi
  case sample =>
    unfold stepSample
    split
    case h_1 => simp
    case h_2 t _ => by_cases hup : s.budget ≤ elapsed s t <;> simp [hup]
  case finish => exact absurd hf hfinish
  case fail => exact absurd hf hfail

/-- STATUS has something to show of a command: it runs, it is done, or it failed. -/
def ShowsCommand (s : State) : Prop := s.busy = true ∨ s.done = true ∨ s.err ≠ .none

/-- A command ends in FINISH, with DONE set, or in FAIL, with an error (R162, R163). -/
theorem showsCommand_sequencerStep (inp : CycleInput) {s : State} (hi : s.fsm ≠ .idle) :
    ShowsCommand (sequencerStep s.fsm inp s) := by
  by_cases hfinish : s.fsm = .finish
  · rw [hfinish]
    exact .inr (.inl rfl)
  · by_cases hfail : s.fsm = .fail
    · rw [hfail]
      exact .inr (.inr nofun)
    · exact .inl ((busy_iff _).2 (sequencerStep_fsm_ne_idle inp hi hfinish hfail))

/-- A busy cycle without reset leaves the command in STATUS. -/
theorem showsCommand_step {s t : State} (hr : (cycleInput s).rst = false) (hb : s.fsm ≠ .idle)
    (h : step s = .next t) : ShowsCommand t := by
  obtain ⟨u, hu, rfl⟩ := step_without_reset hr h
  have hfsm : u.fsm = s.fsm := by
    cases busOnly_of_performAccess (s := beginCycle s) hb hu <;> rfl
  rw [← hfsm] at hb ⊢
  exact showsCommand_sequencerStep _ hb

/-- Settles O60: an accepted command is busy, and every cycle of its run leaves it in STATUS. -/
theorem statusShowsTheCommand : Obligations.StatusShowsTheCommand := by
  intro o p s t events n ha run
  obtain ⟨_, h⟩ := busyRun_forward (fun _ _ _ u => ShowsCommand u)
    (fun _ _ _ _ _ _ hr hbusy hstep => showsCommand_step hr hbusy hstep) run [] 0
    (.inl ((busy_iff s).2 (by simp [ha.fsm])))
  refine ⟨statusWord t, rfl, ?_⟩
  rwa [statusWord_busy, statusWord_done, statusWord_err, ne_eq, errCode_bits_eq_zero_iff]

/-! ## What no host access of a running command can tell (R65, R117, R176, R213) -/

/-- The inputs of a cycle without the value the cipher core drives. -/
def CycleInput.undriven (inp : CycleInput) : CycleInput := { inp with encOut := none }

/-- `s'` is `s` but for the buffer, the seed, the schedule and the values the cipher core is to drive. -/
inductive SameToHost (s : State) : State → Prop where
  | mk (buf seed : Bytes32) (sched : Option Bytes32) (script : List CycleInput) :
      script.map CycleInput.undriven = s.script.map CycleInput.undriven →
      SameToHost s { s with buf := buf, seed := seed, sched := sched, script := script }

section
variable {s s' : State}

/-- The cycle's inputs are the same but for the driven value. -/
theorem sameToHost_cycleInput (h : SameToHost s s') : ∃ o, cycleInput s' = { cycleInput s with encOut := o } := by
  obtain ⟨b, k, c, l, hl⟩ := h
  unfold cycleInput
  cases hs : s.script with
  | nil =>
    rw [hs, List.map_nil, List.map_eq_nil_iff] at hl
    subst hl
    exact ⟨none, rfl⟩
  | cons inp rest =>
    rw [hs, List.map_cons, List.map_eq_cons_iff] at hl
    obtain ⟨inp', rest', rfl, hinp, -⟩ := hl
    refine ⟨inp'.encOut, ?_⟩
    simp only [CycleInput.undriven, CycleInput.mk.injEq] at hinp
    cases inp'
    simp_all

theorem sameToHost_beginCycle (h : SameToHost s s') : SameToHost (beginCycle s) (beginCycle s') := by
  obtain ⟨b, k, c, l, hl⟩ := h
  exact .mk b k c l.tail (by simp [beginCycle, List.map_tail, hl])

theorem sameToHost_resetCycle (h : SameToHost s s') (inp : CycleInput) (o : Option Bytes16) :
    SameToHost (resetCycle inp s) (resetCycle { inp with encOut := o } s') := by
  obtain ⟨b, k, c, l, hl⟩ := h
  exact .mk _ _ _ l hl

/-- An access to a busy block neither shows nor changes what the host may not see: a word of the buffer or of the seed
reads 0, a write is dropped (R102, R117, R119). -/
theorem sameToHost_exec (h : SameToHost s s') (hb : s.busy = true) (i : Instr) :
    ∃ u u', exec i s = .next u ∧ exec i s' = .next u' ∧ SameToHost u u' := by
  obtain ⟨b, k, c, l, hl⟩ := h
  have hb' : State.busy { s with buf := b, seed := k, sched := c, script := l } = true := hb
  cases hi : i.isRead with
  | false => exact ⟨_, _, exec_of_busy_write hi hb, exec_of_busy_write hi hb', .mk b k c l hl⟩
  | true =>
    cases i
    case rdBuf =>
      simp only [exec, execRdBuf, hb, hb', if_true]
      exact ⟨_, _, rfl, rfl, .mk b k c l hl⟩
    case rdCmd | rdStatus | rdIrqEn | rdRoundsLo | rdRoundsHi | rdBudgetLo | rdBudgetHi | rdResultLo | rdResultHi |
      rdSeed | rdReserved0C | rdReserved282C | rdReserved303C | rdReserved80FC =>
      exact ⟨_, _, rfl, rfl, .mk b k c l hl⟩
    all_goals cases hi

theorem sameToHost_performAccess (h : SameToHost s s') (hb : s.busy = true) (access : Option AccessWord) :
    ∃ u u', performAccess access s = .next u ∧ performAccess access s' = .next u' ∧ SameToHost u u' := by
  cases access with
  | none => exact ⟨s, s', rfl, rfl, h⟩
  | some w => exact sameToHost_exec h hb (decode w)

theorem sameToHost_roundComplete (h : SameToHost s s') : SameToHost (roundComplete s) (roundComplete s') := by
  obtain ⟨b, k, c, l, hl⟩ := h
  simp only [roundComplete, roundCompleteTransform, roundCompleteCalibrate]
  split
  · exact .mk b k c l hl
  · split <;> exact .mk b k c l hl

theorem sameToHost_sequencerStep (h : SameToHost s s') (f : Fsm) (inp : CycleInput) (o : Option Bytes16) :
    SameToHost (sequencerStep f inp s) (sequencerStep f { inp with encOut := o } s') := by
  have hself := h
  obtain ⟨b, k, c, l, hl⟩ := h
  have htime : timeSample { inp with encOut := o } = timeSample inp := rfl
  cases f <;> simp only [sequencerStep]
  case idle => exact hself
  case keysetup => simp only [stepKeysetup]; split <;> exact .mk _ _ _ l hl
  case t0 => simp only [stepT0, htime]; split <;> exact .mk b k c l hl
  case batchCheck => simp only [stepBatchCheck]; split <;> exact .mk b k c l hl
  case encA => simp only [stepEncA]; split <;> exact .mk _ k c l hl
  case encB =>
    simp only [stepEncB]
    split
    · exact sameToHost_roundComplete (.mk _ k c l hl)
    · exact hself
  case sample => simp only [stepSample, htime]; split <;> exact .mk b k c l hl
  case finish | fail => exact .mk _ _ _ l hl

/-- A cycle of a busy block keeps what the host may not see hidden. -/
theorem sameToHost_step (h : SameToHost s s') (hb : s.fsm ≠ .idle) :
    ∃ u u', step s = .next u ∧ step s' = .next u' ∧ SameToHost u u' := by
  have hfsm : s'.fsm = s.fsm := by cases h; rfl
  obtain ⟨o, hinp⟩ := sameToHost_cycleInput h
  have hbegin := sameToHost_beginCycle h
  cases hr : (cycleInput s).rst with
  | true =>
    have hr' : (cycleInput s').rst = true := by rw [hinp, hr]
    exact ⟨_, _, step_of_reset hr, step_of_reset hr', hinp ▸ sameToHost_resetCycle hbegin _ o⟩
  | false =>
    obtain ⟨v, v', hv, hv', hsame⟩ := sameToHost_performAccess hbegin ((busy_iff s).2 hb) (cycleInput s).access
    have hr' : (cycleInput s').rst = false := by rw [hinp, hr]
    refine ⟨_, _, step_of_performAccess hr hv, step_of_performAccess hr' (by rw [hinp]; exact hv'), ?_⟩
    rw [hfsm, hinp]
    exact sameToHost_sequencerStep hsame _ _ o

end

/-- Two runs that differ in what the host may not see go on alike, cycle by cycle. -/
theorem sameToHost_busyRun {env : Fsm → State → Prop} {p : Fsm} {s t : State} {events : List PortEvent} {n : Nat}
    (run : BusyRun env p s events n t) : ∀ {s' : State}, SameToHost s s' →
    ∃ t' events', BusyRun (fun _ _ => True) p s' events' n t' ∧ SameToHost t t' := by
  induction run with
  | stop p s => exact fun h => ⟨_, [], .stop p _, h⟩
  | cycle p s u t events n henv hbusy hstep _ ih =>
    intro s' h
    have hfsm : s'.fsm = s.fsm := by cases h; rfl
    obtain ⟨v, u', hv, hstep', hu⟩ := sameToHost_step h hbusy
    cases hstep.symm.trans hv
    obtain ⟨t', events', rest, ht⟩ := ih hu
    rw [← hfsm] at hbusy rest
    exact ⟨t', _, .cycle p s' u' t' events' n trivial hbusy hstep' rest, ht⟩

/-- Settles O45: the second run is that of a state the host cannot tell from the first. -/
theorem runningCommandShowsNoKeyMaterial : Obligations.RunningCommandShowsNoKeyMaterial := by
  intro env p s t events n buf' seed' sched' script' run hscript
  obtain ⟨t', events', run', ht⟩ := sameToHost_busyRun run (.mk buf' seed' sched' script' hscript)
  refine ⟨t', events', run', ?_⟩
  cases ht
  exact ⟨rfl, rfl, rfl, rfl, rfl⟩

end Sys2Proof.Machine
end

section
/-! SUPPORT. Proofs about the encoding of access words (spec/30_encoding.md): the decoder and the encoder undo each other,
every word lies in exactly one row of the table, and every word has a meaning. -/

namespace Sys2Proof

/-! ## Each write is the twin of the read at its offset (R72)

With this a fact about the writes follows from the same fact about the reads, which are finitely many. -/

/-- The write of `data` at the offset that a read instruction reads; at offset 0x00 it is the command of `data`. -/
def Instr.writeTwin (data : Word) : Instr → Instr
  | .rdCmd lane => decodeCommand data lane
  | .rdStatus lane => .wrStatus data lane
  | .rdIrqEn lane => .wrIrqEn data lane
  | .rdRoundsLo lane => .wrRoundsLo data lane
  | .rdRoundsHi lane => .wrRoundsHi data lane
  | .rdBudgetLo lane => .wrBudgetLo data lane
  | .rdBudgetHi lane => .wrBudgetHi data lane
  | .rdResultLo lane => .wrResultLo data lane
  | .rdResultHi lane => .wrResultHi data lane
  | .rdBuf k lane => .wrBuf k data lane
  | .rdSeed k lane => .wrSeed k data lane
  | .rdReserved0C lane => .wrReserved0C data lane
  | .rdReserved282C off => .wrReserved282C off data
  | .rdReserved303C off => .wrReserved303C off data
  | .rdReserved80FC off => .wrReserved80FC off data
  | i => i

/-- The two halves of the decoder select by the same tests. -/
theorem decodeWrite_eq_writeTwin (word : BitVec 6) (lane : BitVec 2) (data : Word) :
    decodeWrite word lane data = (decodeRead word lane).writeTwin data := by
  simp only [decodeRead, apply_ite (Instr.writeTwin data)]
  rfl

/-! ## The rows that hold several words or codes -/

theorem decodeRead_buf (k : BitVec 3) (lane : BitVec 2) : decodeRead (0b010#3 ++ k) lane = .rdBuf k lane := by
  revert k lane
  decide

theorem decodeRead_seed (k : BitVec 3) (lane : BitVec 2) : decodeRead (0b011#3 ++ k) lane = .rdSeed k lane := by
  revert k lane
  decide

theorem decodeRead_reserved282C (off : BitVec 8) (h : offIn282C off = true) :
    decodeRead (off.extractLsb' 2 6) (off.extractLsb' 0 2) = .rdReserved282C off := by
  revert off
  decide

theorem decodeRead_reserved303C (off : BitVec 8) (h : offIn303C off = true) :
    decodeRead (off.extractLsb' 2 6) (off.extractLsb' 0 2) = .rdReserved303C off := by
  revert off
  decide

theorem decodeRead_reserved80FC (off : BitVec 8) (h : offIn80FC off = true) :
    decodeRead (off.extractLsb' 2 6) (off.extractLsb' 0 2) = .rdReserved80FC off := by
  revert off
  decide

/-- The two reserved rows hold every code but the four commands' (R73). -/
theorem reserved_code_iff (code : BitVec 4) : codeIn47 code = true ∨ codeIn8F code = true ↔
    code ≠ 0#4 ∧ code ≠ 1#4 ∧ code ≠ 2#4 ∧ code ≠ 3#4 := by
  revert code
  decide

/-- The two reserved rows share no code (R73). -/
theorem codeIn47_of_codeIn8F (code : BitVec 4) (h : codeIn8F code = true) : codeIn47 code = false := by
  revert code
  decide

theorem decodeCommand_reserved47 (code : BitVec 4) (ignored : BitVec 28) (lane : BitVec 2) (h : codeIn47 code = true) :
    decodeCommand (ignored ++ code) lane = .cmdReserved47 code ignored lane := by
  obtain ⟨h0, h1, h2, h3⟩ := (reserved_code_iff code).1 (.inl h)
  simp [decodeCommand, code_of_command, ignored_of_command, h0, h1, h2, h3, h]

theorem decodeCommand_reserved8F (code : BitVec 4) (ignored : BitVec 28) (lane : BitVec 2) (h : codeIn8F code = true) :
    decodeCommand (ignored ++ code) lane = .cmdReserved8F code ignored lane := by
  obtain ⟨h0, h1, h2, h3⟩ := (reserved_code_iff code).1 (.inr h)
  simp [decodeCommand, code_of_command, ignored_of_command, h0, h1, h2, h3, codeIn47_of_codeIn8F code h]

/-! ## Decoding an encoding (R70 to R73) -/

theorem decode_encodeRead (word : BitVec 6) (lane : BitVec 2) :
    decode (encodeRead word lane) = decodeRead word lane := by
  simp [encodeRead, decode_ofFields]

theorem decode_encodeWrite (word : BitVec 6) (lane : BitVec 2) (data : Word) :
    decode (encodeWrite word lane data) = (decodeRead word lane).writeTwin data := by
  simp [encodeWrite, decode_ofFields, decodeWrite_eq_writeTwin]

theorem decode_encodeCommand (code : BitVec 4) (ignored : BitVec 28) (lane : BitVec 2) :
    decode (encodeCommand code ignored lane) = decodeCommand (ignored ++ code) lane :=
  decode_encodeWrite ..

/-- Settles O1: commands by their code, reads by their word, writes as the twins of the reads. -/
theorem decodeOfEncode : Obligations.DecodeOfEncode := by
  intro i hi
  cases i <;> simp only [encode, decode_encodeCommand, decode_encodeRead, decode_encodeWrite]
  case cmdAck | cmdTransform | cmdCalibrate | cmdClear =>
    simp [decodeCommand, code_of_command, ignored_of_command]
  case cmdReserved47 => exact decodeCommand_reserved47 _ _ _ hi
  case cmdReserved8F => exact decodeCommand_reserved8F _ _ _ hi
  case rdBuf | wrBuf => simp only [decodeRead_buf, Instr.writeTwin]
  case rdSeed | wrSeed => simp only [decodeRead_seed, Instr.writeTwin]
  case rdReserved282C | wrReserved282C => simp only [decodeRead_reserved282C _ hi, Instr.writeTwin]
  case rdReserved303C | wrReserved303C => simp only [decodeRead_reserved303C _ hi, Instr.writeTwin]
  case rdReserved80FC | wrReserved80FC => simp only [decodeRead_reserved80FC _ hi, Instr.writeTwin]
  all_goals rfl

/-! ## Encoding a decoded word (R70, R76) -/

/-- A command word is its ignored bits and its code (R71). -/
theorem command_of_fields (data : Word) : (data.extractLsb' 4 28 ++ data.extractLsb' 0 4 : Word) = data := by
  apply BitVec.eq_of_getLsbD_eq
  intro i hi
  refine (BitVec.getLsbD_append (x := data.extractLsb' 4 28) (y := data.extractLsb' 0 4)).trans ?_
  by_cases h : i < 4
  · simp [h]
  · simp [h, show i - 4 < 28 by omega, show 4 + (i - 4) = i by omega]

theorem encode_decodeCommand (data : Word) (lane : BitVec 2) :
    encode (decodeCommand data lane) = encodeWrite 0#6 lane data := by
  have hfields : encode (decodeCommand data lane) =
      encodeCommand (data.extractLsb' 0 4) (data.extractLsb' 4 28) lane := by
    simp only [decodeCommand]
    split_ifs with h0 h1 h2 h3 <;> simp only [encode, *]
  rw [hfields, encodeCommand, command_of_fields]

theorem encode_decodeRead (word : BitVec 6) (lane : BitVec 2) :
    encode (decodeRead word lane) = encodeRead word lane := by
  revert word lane
  decide

/-- A read and its twin differ in `we` and the data only. -/
theorem encode_writeTwin {i : Instr} (hi : i.isRead = true) (data : Word) :
    encode (i.writeTwin data) = encodeWrite (encode i).word (encode i).lane data := by
  cases i
  case rdCmd =>
    rw [Instr.writeTwin, encode_decodeCommand]
    simp [encode, encodeRead]
  case rdStatus | rdIrqEn | rdRoundsLo | rdRoundsHi | rdBudgetLo | rdBudgetHi | rdResultLo | rdResultHi | rdBuf | rdSeed |
    rdReserved0C | rdReserved282C | rdReserved303C | rdReserved80FC => simp [Instr.writeTwin, encode, encodeRead]
  all_goals cases hi

/-- A decoded word is encoded by its own fields, the data of a read being 0 (R70). -/
theorem encode_decode (w : AccessWord) :
    encode (decode w) = AccessWord.ofFields w.we w.word w.lane (if w.we = 1#1 then w.data else 0#32) := by
  unfold decode
  by_cases hwe : w.we = 1#1
  · rw [if_pos hwe, if_pos hwe, decodeWrite_eq_writeTwin, encode_writeTwin (isRead_decodeRead ..), encode_decodeRead, hwe]
    simp [encodeRead, encodeWrite]
  · have hwe0 : w.we = 0#1 := by bv_omega
    rw [if_neg hwe, if_neg hwe, encode_decodeRead, hwe0, encodeRead]

/-- Settles O2: the fields that the encoding keeps are all of the word's. -/
theorem encodeOfDecode : Obligations.EncodeOfDecode := by
  intro w hread
  have hdata : (if w.we = 1#1 then w.data else 0#32) = w.data := by
    split
    · rfl
    · exact (hread (by bv_omega)).symm
  rw [encode_decode, hdata, AccessWord.ofFields_fields]

/-! ## The one row of a word (R72, R73, R76) -/

theorem wellFormed_decodeCommand (data : Word) (lane : BitVec 2) : (decodeCommand data lane).wellFormed = true := by
  simp only [decodeCommand]
  split_ifs with h0 h1 h2 h3 h4
  · rfl
  · rfl
  · rfl
  · rfl
  · exact h4
  · exact ((reserved_code_iff _).2 ⟨h0, h1, h2, h3⟩).resolve_left h4

theorem wellFormed_decodeRead (word : BitVec 6) (lane : BitVec 2) : (decodeRead word lane).wellFormed = true := by
  revert word lane
  decide

theorem wellFormed_writeTwin {i : Instr} (hi : i.wellFormed = true) (data : Word) :
    (i.writeTwin data).wellFormed = true := by
  cases i
  case rdCmd => exact wellFormed_decodeCommand ..
  all_goals exact hi

theorem wellFormed_decode (w : AccessWord) : (decode w).wellFormed = true := by
  unfold decode
  split
  · rw [decodeWrite_eq_writeTwin]
    exact wellFormed_writeTwin (wellFormed_decodeRead ..) _
  · exact wellFormed_decodeRead ..

open Laws.EncodingRow in
/-- The laws of the single instructions, as one. -/
theorem row_covers_encode (i : Instr) : Statement i := by
  cases i <;> simp only [cmdAck, cmdTransform, cmdCalibrate, cmdClear, cmdReserved47, cmdReserved8F, rdCmd, rdStatus,
    wrStatus, rdIrqEn, wrIrqEn, rdRoundsLo, wrRoundsLo, rdRoundsHi, wrRoundsHi, rdBudgetLo, wrBudgetLo, rdBudgetHi,
    wrBudgetHi, rdResultLo, wrResultLo, rdResultHi, wrResultHi, rdBuf, wrBuf, rdSeed, wrSeed, rdReserved0C,
    wrReserved0C, rdReserved282C, wrReserved282C, rdReserved303C, wrReserved303C, rdReserved80FC, wrReserved80FC]

/-- The row of a read fixes no data bit (R70). -/
theorem mask_data_decodeRead (word : BitVec 6) (lane : BitVec 2) : (decodeRead word lane).row.mask.data = 0#32 := by
  revert word lane
  decide

theorem covers_of_mask_data {r : OpcodeRow} (h : r.mask.data = 0#32) (we : BitVec 1) (word : BitVec 6)
    (lane : BitVec 2) (data data' : Word) :
    r.covers (AccessWord.ofFields we word lane data) = r.covers (AccessWord.ofFields we word lane data') := by
  rw [OpcodeRow.covers, OpcodeRow.covers, ← AccessWord.ofFields_fields r.mask, h]
  simp only [AccessWord.ofFields_and, BitVec.and_zero]

/-- The row of the decoded instruction covers its encoding, which differs from the word in a read's data only. -/
theorem row_covers_decode (w : AccessWord) : (decode w).row.covers w = true := by
  have hcovers := row_covers_encode _ (wellFormed_decode w)
  rw [encode_decode] at hcovers
  by_cases hwe : w.we = 1#1
  · rwa [if_pos hwe, AccessWord.ofFields_fields] at hcovers
  · have hmask : (decode w).row.mask.data = 0#32 := by rw [decode, if_neg hwe, mask_data_decodeRead]
    rwa [covers_of_mask_data hmask _ _ _ _ w.data, AccessWord.ofFields_fields] at hcovers

/-- Two rows that cover one word agree in the bits that both fix. -/
theorem patterns_agree_of_covers {r r' : OpcodeRow} {w : AccessWord} (h : r.covers w = true) (h' : r'.covers w = true) :
    r.pattern &&& r'.mask = r'.pattern &&& r.mask := by
  rw [OpcodeRow.covers, beq_iff_eq] at h h'
  rw [← h, ← h', BitVec.and_assoc, BitVec.and_assoc, BitVec.and_comm r.mask]

/-- One instruction of each row of the table. -/
def rowSamples : List Instr :=
  [.cmdAck 0 0, .cmdTransform 0 0, .cmdCalibrate 0 0, .cmdClear 0 0, .cmdReserved47 4 0 0, .cmdReserved8F 8 0 0,
   .rdCmd 0, .rdStatus 0, .wrStatus 0 0, .rdIrqEn 0, .wrIrqEn 0 0, .rdRoundsLo 0, .wrRoundsLo 0 0, .rdRoundsHi 0,
   .wrRoundsHi 0 0, .rdBudgetLo 0, .wrBudgetLo 0 0, .rdBudgetHi 0, .wrBudgetHi 0 0, .rdResultLo 0, .wrResultLo 0 0,
   .rdResultHi 0, .wrResultHi 0 0, .rdBuf 0 0, .wrBuf 0 0 0, .rdSeed 0 0, .wrSeed 0 0 0, .rdReserved0C 0,
   .wrReserved0C 0 0, .rdReserved282C 0x28, .wrReserved282C 0x28 0, .rdReserved303C 0x30, .wrReserved303C 0x30 0,
   .rdReserved80FC 0x80, .wrReserved80FC 0x80 0]

theorem row_mem_rowSamples (i : Instr) : i.row ∈ rowSamples.map Instr.row := by
  cases i <;> simp [rowSamples, Instr.row]

/-- Any two rows of the table differ in a bit that both fix. -/
theorem row_eq_of_patterns_agree : ∀ r ∈ rowSamples.map Instr.row, ∀ r' ∈ rowSamples.map Instr.row,
    r.pattern &&& r'.mask = r'.pattern &&& r.mask → r = r' := by
  decide

/-- Settles O3: the decoded instruction's row covers the word, and two rows that cover it are the same. -/
theorem decodeSelectsTheOneRow : Obligations.DecodeSelectsTheOneRow := fun w =>
  ⟨wellFormed_decode w, row_covers_decode w, fun i hi =>
    row_eq_of_patterns_agree _ (row_mem_rowSamples i) _ (row_mem_rowSamples (decode w))
      (patterns_agree_of_covers hi (row_covers_decode w))⟩

/-- Settles O5: the decoder computes each of these words. -/
theorem writtenOutWordsDecode : Obligations.WrittenOutWordsDecode :=
  ⟨rfl, rfl, rfl, rfl, rfl, rfl, rfl, rfl, rfl⟩

end Sys2Proof

namespace Sys2Proof.Machine

/-! ## The block never traps (R76, R200) -/

theorem performAccess_completes (access : Option AccessWord) (s : State) : ∃ t, performAccess access s = .next t := by
  cases access with
  | none => exact ⟨s, rfl⟩
  | some w => exact exec_completes (decode w) s

/-- Settles O25: a reset completes, an access completes, and the sequencer's step after it is total. -/
theorem nothingEverTraps : Obligations.NothingEverTraps := by
  refine ⟨exec_completes, fun s => ?_⟩
  cases hr : (cycleInput s).rst with
  | true => exact ⟨_, step_of_reset hr⟩
  | false =>
    obtain ⟨u, hu⟩ := performAccess_completes (cycleInput s).access (beginCycle s)
    exact ⟨_, step_of_performAccess hr hu⟩

end Sys2Proof.Machine
end

section
/-! SUPPORT. Proofs about the single accesses (spec/40_host_access.md): what each read returns, what each write stores and
leaves alone, what a dropped write leaves of the running command, and that no access tells the seed. -/

namespace Sys2Proof.Machine

/-! ## No access tells the seed (R119, R213) -/

/-- `s'` is `s` but for the seed and the core's schedule. -/
inductive DiffersInKey (s : State) : State → Prop where
  | mk (seed : Bytes32) (sched : Option Bytes32) : DiffersInKey s { s with seed := seed, sched := sched }

section
variable {s s' : State}

/-- A write keeps such a difference when its effect on the idle block does: whether it is dropped does not depend on the
key. -/
theorem differsInKey_busWrite {effect : State → State} (h : DiffersInKey s s')
    (he : DiffersInKey (effect s) (effect s')) : DiffersInKey (busWrite effect s) (busWrite effect s') := by
  have hbusy : s'.busy = s.busy := by cases h; rfl
  cases hb : s.busy with
  | true =>
    rw [busWrite_of_busy hb, busWrite_of_busy (hbusy.trans hb)]
    obtain ⟨k, c⟩ := h
    exact .mk k c
  | false => rwa [busWrite_of_idle hb, busWrite_of_idle (hbusy.trans hb)]

/-- A command is accepted or rejected by the masks alone (R132, R134). -/
theorem differsInKey_startCommand {accept : State → State} (h : DiffersInKey s s')
    (ha : DiffersInKey (accept s) (accept s')) :
    DiffersInKey (startCommand accept s) (startCommand accept s') := by
  have hargs : argumentsPresent s' = argumentsPresent s := by cases h; rfl
  cases hp : argumentsPresent s with
  | true => rwa [startCommand_of_present hp, startCommand_of_present (hargs.trans hp)]
  | false =>
    rw [startCommand_of_missing hp, startCommand_of_missing (hargs.trans hp)]
    obtain ⟨k, c⟩ := h
    exact .mk k c

/-- No access carries the key into another register or into the data it returns: a read returns no part of it, a command
is started by the masks, and a seed write replaces words of the seed by its own data. -/
theorem differsInKey_exec (h : DiffersInKey s s') (i : Instr) :
    ∃ u u', exec i s = .next u ∧ exec i s' = .next u' ∧ DiffersInKey u u' := by
  have hself := h
  obtain ⟨k, c⟩ := h
  cases i
  case rdCmd | rdStatus | rdIrqEn | rdRoundsLo | rdRoundsHi | rdBudgetLo | rdBudgetHi | rdResultLo | rdResultHi |
    rdBuf | rdSeed | rdReserved0C | rdReserved282C | rdReserved303C | rdReserved80FC =>
    exact ⟨_, _, rfl, rfl, .mk k c⟩
  case cmdTransform | cmdCalibrate =>
    exact ⟨_, _, rfl, rfl, differsInKey_busWrite hself (differsInKey_startCommand (.mk k c) (.mk k c))⟩
  all_goals exact ⟨_, _, rfl, rfl, differsInKey_busWrite hself (.mk _ c)⟩

end

/-- Settles O44: the two accesses end in states that differ in the key alone. -/
theorem noReadTellsTheSeed : Obligations.NoReadTellsTheSeed := by
  intro s t t' seed' sched' w ht ht'
  obtain ⟨u, u', hu, hu', hkey⟩ := differsInKey_exec (.mk seed' sched') (decode w)
  cases hu.symm.trans ht
  cases hu'.symm.trans ht'
  cases hkey
  exact ⟨rfl, rfl, rfl, rfl⟩

/-! ## What the reads return (R103 to R121) -/

/-- The flags of STATUS above ERR, and the bit that reads 0 (R105). -/
theorem statusWord_upperFlags (s : State) :
    (statusWord s).getLsbD 5 = s.sat ∧ (statusWord s).getLsbD 6 = s.wrIgnored ∧ (statusWord s).getLsbD 7 = false := by
  simp only [getLsbD_statusWord, BitVec.getLsbD_append]
  simp

/-- The three bytes of STATUS above the flags (R105). -/
theorem statusWord_upperBytes (s : State) :
    (statusWord s).extractLsb' 8 8 = s.bufWmask ∧ (statusWord s).extractLsb' 16 8 = s.seedWmask ∧
      (statusWord s).extractLsb' 24 8 = 0#8 := by
  refine ⟨?_, ?_, ?_⟩
  all_goals
    apply BitVec.eq_of_getLsbD_eq
    intro i hi
    simp only [BitVec.getLsbD_extractLsb', getLsbD_statusWord, BitVec.getLsbD_append]
    grind

/-- Settles O7: the word is STATUS put together from its fields; while busy the arguments of the command are present. -/
theorem statusReadReturnsItsFields : Obligations.StatusReadReturnsItsFields := by
  intro s lane
  obtain ⟨hsat, hignored, hreserved⟩ := statusWord_upperFlags s
  obtain ⟨hbuf, hseed, hzero⟩ := statusWord_upperBytes s
  have hbusy : s.busy = decide (s.fsm ≠ .idle) := by simp [← busy_iff]
  refine ⟨statusWord s, rfl, (statusWord_busy s).trans hbusy, statusWord_done s, ?_, hsat, hignored, hreserved, hbuf,
    hseed, hzero, fun hinv hf => hseed.trans (hinv.arguments hf).2⟩
  rw [statusWord_err]
  cases s.err <;> rfl

/-- Settles O9: the read's word is 0 while busy, and the buffer's word while idle. -/
theorem bufferReadReturnsItsBytes : Obligations.BufferReadReturnsItsBytes := by
  intro s k lane
  have hread : exec (.rdBuf k lane) s = .next (busReturn (if s.busy then 0#32 else wordAt s.buf k) s) := rfl
  rw [hread]
  constructor
  · intro hf
    rw [if_pos ((busy_iff s).2 hf)]
    rfl
  · intro hf
    refine ⟨wordAt s.buf k, ?_, fun j hj => byteAt_wordAt _ _ _ hj⟩
    rw [(not_busy_iff s).2 hf]
    rfl

/-- Settles O6: each of these reads returns 0 by its definition. -/
theorem constantRegistersReadZero : Obligations.ConstantRegistersReadZero :=
  fun _ _ _ _ => ⟨rfl, rfl, rfl, rfl, rfl, rfl⟩

/-- Settles O8: each register's two words are its remainder and its quotient by `2^32`. -/
theorem operandRegistersReadTheirValues : Obligations.OperandRegistersReadTheirValues := by
  intro s lane
  refine ⟨⟨_, rfl, ?_⟩, ⟨_, rfl, loWord_toNat _⟩, ⟨_, rfl, hiWord_toNat _⟩, ⟨_, rfl, loWord_toNat _⟩,
    ⟨_, rfl, hiWord_toNat _⟩, ⟨_, rfl, loWord_toNat _⟩, ⟨_, rfl, hiWord_toNat _⟩⟩
  cases s.ie <;> rfl

/-! ## What the writes store (R106 to R122) -/

/-- A write answers an idle block with its row's effect (R101). -/
theorem next_busWrite_of_idle {s : State} (hf : s.fsm = .idle) (effect : State → State) :
    (.next (busWrite effect s) : Result) = .next (effect s) :=
  congrArg _ (busWrite_of_idle ((not_busy_iff s).2 hf))

/-- Settles O13: such a write has no effect of its own. -/
theorem readOnlyAndReservedWritesDoNothing : Obligations.ReadOnlyAndReservedWritesDoNothing := by
  intro s data lane off i hi
  have hwrite : exec i s = .next (busWrite id s) := by
    obtain rfl | rfl | rfl | rfl | rfl | rfl | rfl := hi <;> rfl
  rw [hwrite]
  exact ⟨fun hf => next_busWrite_of_idle hf id,
    fun hf => congrArg _ (busWrite_of_busy ((busy_iff s).2 hf))⟩

/-- Settles O14: while busy by the drop of writes, while idle by the halves of a 64-bit register. -/
theorem operandWritesStoreTheirData : Obligations.OperandWritesStoreTheirData := by
  intro s data lane
  constructor
  · rintro hf i (rfl | rfl | rfl | rfl | rfl) <;> exact exec_of_busy_write rfl ((busy_iff s).2 hf)
  · intro hf
    have store := next_busWrite_of_idle hf
    have hbit : data.getLsbD 0 = decide (data.toNat % 2 = 1) := by simp [BitVec.getLsbD, Nat.testBit_zero]
    exact ⟨hbit ▸ store _, ⟨_, store _, setLo_toNat _ _⟩, ⟨_, store _, setHi_toNat _ _⟩,
      ⟨_, store _, setLo_toNat _ _⟩, ⟨_, store _, setHi_toNat _ _⟩⟩

/-- Settles O15: while busy by the drop of writes, while idle by the lanes of a stored word and its mask bit. -/
theorem bufferAndSeedWritesStoreTheirBytes : Obligations.BufferAndSeedWritesStoreTheirBytes := by
  intro s k data lane
  constructor
  · intro hf
    have hb := (busy_iff s).2 hf
    exact ⟨exec_of_busy_write rfl hb, exec_of_busy_write rfl hb⟩
  · intro hf
    have store := next_busWrite_of_idle hf
    exact ⟨⟨_, _, store _, byteAt_setWord _ _ _, getLsbD_setMaskBit _ _⟩,
      ⟨_, _, store _, byteAt_setWord _ _ _, getLsbD_setMaskBit _ _⟩⟩

/-! ## A dropped write and the running command (R102) -/

theorem roundComplete_dropWrite (s : State) : roundComplete (dropWrite s) = dropWrite (roundComplete s) := by
  simp only [roundComplete, dropWrite_op]
  cases s.op with
  | transform => rfl
  | calibrate => simp only [roundCompleteCalibrate, apply_ite dropWrite]; rfl

/-- The sequencer's step takes no notice of a write dropped before it. -/
theorem sequencerStep_dropWrite (f : Fsm) (inp : CycleInput) (s : State) :
    sequencerStep f inp (dropWrite s) = dropWrite (sequencerStep f inp s) := by
  cases f
  case idle | finish | fail => rfl
  case keysetup => simp only [sequencerStep, stepKeysetup]; split <;> rfl
  case t0 => simp only [sequencerStep, stepT0]; split <;> rfl
  case batchCheck => simp only [sequencerStep, stepBatchCheck, apply_ite dropWrite]; rfl
  case encA => simp only [sequencerStep, stepEncA]; split <;> rfl
  case encB =>
    simp only [sequencerStep, stepEncB]
    split
    · exact roundComplete_dropWrite { s with buf := setBlockB s.buf (encAnswer inp s (blockB s.buf)) }
    · rfl
  case sample => simp only [sequencerStep, stepSample]; split <;> rfl

/-- The sequencer does not see the access on the bus. -/
theorem sequencerStep_withAccess (f : Fsm) (inp : CycleInput) (access : Option AccessWord) (s : State) :
    sequencerStep f { inp with access := access } s = sequencerStep f inp s := by
  cases f <;> rfl

/-- Settles O12: without the write the access of the cycle leaves the block as it is, and the sequencer's step keeps the
mark of the dropped write. -/
theorem busyWriteLeavesTheCommandRunning : Obligations.BusyWriteLeavesTheCommandRunning := by
  intro s inp rest w hscript hrst haccess hwe hf
  have hdrop : performAccess inp.access (beginCycle s) = .next (dropWrite (beginCycle s)) := by
    rw [haccess]
    exact exec_of_busy_write (by simp [isRead_decode, hwe]) ((busy_iff s).2 hf)
  have hbegin : beginCycle { s with script := { inp with access := none } :: rest } = beginCycle s := by
    simp [beginCycle, hscript]
  refine ⟨sequencerStep s.fsm inp (beginCycle s), ?_, ?_⟩
  · rw [step_of_script rfl, hbegin, if_neg (by simp [hrst])]
    exact congrArg Host.Outcome.next (sequencerStep_withAccess ..)
  · rw [step_of_script hscript, hdrop, if_neg (by simp [hrst])]
    exact congrArg Host.Outcome.next (sequencerStep_dropWrite ..)

end Sys2Proof.Machine
end

section
/-! SUPPORT. Proofs about the commands (spec/41_commands.md): what a command write does to an idle block, and the state in
which an accepted TRANSFORM or CALIBRATE ends. -/

namespace Sys2Proof.Machine

/-! ## Command writes to an idle block (R130 to R138) -/

/-- Settles O16: nothing follows the clearing of the flags. -/
theorem ackClearsTheStickyFlags : Obligations.AckClearsTheStickyFlags :=
  fun _ _ _ hf => next_busWrite_of_idle hf _

/-- A command that needs its arguments, written to an idle block: accepted with both masks full, else rejected with
INVALID_ARGUMENT (R132, R134, R138). -/
theorem next_startCommand_of_idle {s : State} (hf : s.fsm = .idle) (accept : State → State) :
    (s.bufWmask = 0xFF#8 → s.seedWmask = 0xFF#8 →
      (.next (commandWrite (startCommand accept) s) : Result) = .next (accept (clearFlags s))) ∧
    (s.bufWmask ≠ 0xFF#8 ∨ s.seedWmask ≠ 0xFF#8 →
      (.next (commandWrite (startCommand accept) s) : Result) =
        .next (recordError .invalidArgument (clearFlags s))) := by
  rw [commandWrite_of_idle ((not_busy_iff s).2 hf)]
  refine ⟨fun hbuf hseed => ?_, fun hmissing => ?_⟩
  · rw [startCommand_of_present (s := clearFlags s) ((argumentsPresent_iff _).2 ⟨hbuf, hseed⟩)]
  · have : argumentsPresent (clearFlags s) = false := by
      rw [← Bool.not_eq_true, argumentsPresent_iff]
      exact not_and_or.2 hmissing
    rw [startCommand_of_missing this]

/-- Settles O17, by the argument check. -/
theorem transformIsAcceptedOrRejected : Obligations.TransformIsAcceptedOrRejected :=
  fun _ _ _ hf => next_startCommand_of_idle hf acceptTransform

/-- Settles O18, by the argument check. -/
theorem calibrateIsAcceptedOrRejected : Obligations.CalibrateIsAcceptedOrRejected :=
  fun _ _ _ hf => next_startCommand_of_idle hf acceptCalibrate

/-- Settles O19: CLEAR writes every register but IRQ_EN, the idle sequencer and the schedule. -/
theorem clearZeroesTheData : Obligations.ClearZeroesTheData := by
  intro s ignored lane hf
  have hbytes : ∀ i, byteAt (0#256) i = 0#8 := fun i => by simp [byteAt]
  refine ⟨clearData (clearFlags s), next_busWrite_of_idle hf _, fun i _ => ⟨hbytes i, hbytes i⟩, rfl, fun hsched => ?_⟩
  simp [clearData, clearFlags, State.reset, hf, hsched]

/-- Settles O20: both reserved rows record the same error. -/
theorem reservedCodesAreIllegal : Obligations.ReservedCodesAreIllegal :=
  fun _ _ _ _ hf => ⟨next_busWrite_of_idle hf _, next_busWrite_of_idle hf _⟩

/-- The instruction of a command word, by its code as a number (R73). -/
theorem decodeCommand_by_code (data : Word) (lane : BitVec 2) : ∃ x : BitVec 28,
    (data.toNat % 16 = 0 ∧ decodeCommand data lane = .cmdAck x lane) ∨
    (data.toNat % 16 = 1 ∧ decodeCommand data lane = .cmdTransform x lane) ∨
    (data.toNat % 16 = 2 ∧ decodeCommand data lane = .cmdCalibrate x lane) ∨
    (data.toNat % 16 = 3 ∧ decodeCommand data lane = .cmdClear x lane) ∨
    (4 ≤ data.toNat % 16 ∧ ∃ c, decodeCommand data lane = .cmdReserved47 c x lane ∨
      decodeCommand data lane = .cmdReserved8F c x lane) := by
  have hcode : (data.extractLsb' 0 4).toNat = data.toNat % 16 := by simp [BitVec.extractLsb'_toNat]
  refine ⟨data.extractLsb' 4 28, ?_⟩
  rw [← hcode]
  unfold decodeCommand
  generalize data.extractLsb' 0 4 = code
  by_cases h0 : code = 0#4
  · simp [h0]
  by_cases h1 : code = 1#4
  · simp [h1]
  by_cases h2 : code = 2#4
  · simp [h2]
  by_cases h3 : code = 3#4
  · simp [h3]
  have hreserved : 4 ≤ code.toNat := by bv_omega
  simp only [h0, h1, h2, h3, if_false]
  refine .inr (.inr (.inr (.inr ⟨hreserved, code, ?_⟩)))
  by_cases h47 : codeIn47 code = true <;> simp [h47]

/-- A command write is decoded by its code alone (R73). -/
theorem decode_of_command {w : AccessWord} (hwe : w.we = 1#1) (hword : w.word = 0#6) :
    decode w = decodeCommand w.data w.lane := by
  rw [decode, if_pos hwe, hword, decodeWrite_command]

/-- What STATUS and the sequencer show after a command that needs its arguments (R138, R208). -/
theorem exec_startCommand_of_idle {i : Instr} {s : State} {accept : State → State} (hf : s.fsm = .idle)
    (hi : exec i s = .next (commandWrite (startCommand accept) s))
    (haccept : accept = acceptTransform ∨ accept = acceptCalibrate) :
    ∃ t, exec i s = .next t ∧ t.done = false ∧ t.sat = false ∧ t.wrIgnored = false ∧
      (¬ (s.bufWmask = 0xFF#8 ∧ s.seedWmask = 0xFF#8) → t.err = .invalidArgument ∧ t.fsm = .idle) ∧
      (s.bufWmask = 0xFF#8 ∧ s.seedWmask = 0xFF#8 → t.err = .none ∧ t.fsm = .keysetup) := by
  obtain ⟨haccepted, hrejected⟩ := next_startCommand_of_idle hf accept
  rw [hi]
  by_cases hargs : s.bufWmask = 0xFF#8 ∧ s.seedWmask = 0xFF#8
  · refine ⟨_, haccepted hargs.1 hargs.2, ?_⟩
    obtain rfl | rfl := haccept <;> exact ⟨rfl, rfl, rfl, fun h => absurd hargs h, fun _ => ⟨rfl, rfl⟩⟩
  · exact ⟨_, hrejected (not_and_or.1 hargs), rfl, rfl, rfl, fun _ => ⟨rfl, hf⟩, fun h => absurd h hargs⟩

/-- Settles O21, code by code. -/
theorem commandWritePriority : Obligations.CommandWritePriority := by
  intro w s hwe hword hf
  rw [decode_of_command hwe hword]
  obtain ⟨x, ⟨hcode, hi⟩ | ⟨hcode, hi⟩ | ⟨hcode, hi⟩ | ⟨hcode, hi⟩ | ⟨hcode, c, hi⟩⟩ :=
    decodeCommand_by_code w.data w.lane
  case inl =>
    rw [hi]
    exact ⟨_, ackClearsTheStickyFlags s x w.lane hf, rfl, rfl, rfl, by simp [hcode, hf]⟩
  case inr.inl =>
    rw [hi]
    obtain ⟨t, ht, hdone, hsat, hignored, hmissing, hpresent⟩ :=
      exec_startCommand_of_idle (i := .cmdTransform x w.lane) hf rfl (.inl rfl)
    exact ⟨t, ht, hdone, hsat, hignored, fun h => by omega, fun _ => hmissing, fun _ => hpresent, fun h => by omega⟩
  case inr.inr.inl =>
    rw [hi]
    obtain ⟨t, ht, hdone, hsat, hignored, hmissing, hpresent⟩ :=
      exec_startCommand_of_idle (i := .cmdCalibrate x w.lane) hf rfl (.inr rfl)
    exact ⟨t, ht, hdone, hsat, hignored, fun h => by omega, fun _ => hmissing, fun _ => hpresent, fun h => by omega⟩
  case inr.inr.inr.inl =>
    rw [hi]
    exact ⟨clearData (clearFlags s), next_busWrite_of_idle hf _, rfl, rfl, rfl, by simp [hcode, hf]⟩
  case inr.inr.inr.inr =>
    obtain ⟨h47, h8F⟩ := reservedCodesAreIllegal s c x w.lane hf
    refine ⟨_, hi.elim (fun h => by rw [h, h47]) (fun h => by rw [h, h8F]), rfl, rfl, rfl, ?_⟩
    exact ⟨fun _ => ⟨rfl, hf⟩, fun h => by omega, fun h => by omega, fun h => by omega⟩

/-! ## What every run of a command keeps, whatever the core answers -/

/-- A busy cycle without reset: its access leaves the engine alone, then the sequencer steps (R61, R102). -/
theorem sequencerStep_of_busy_step {s t : State} (hr : (cycleInput s).rst = false) (hb : s.fsm ≠ .idle)
    (h : step s = .next t) : ∃ u : State, u.engine = s.engine ∧ t = sequencerStep u.fsm (cycleInput s) u := by
  obtain ⟨u, hu, rfl⟩ := step_without_reset hr h
  have he := busOnly_engine (busOnly_of_performAccess (s := beginCycle s) hb hu)
  exact ⟨u, he, by rw [← engine_fsm u, he, engine_fsm]⟩

/-- The transactions of a cycle are those of its engine. -/
theorem portEvents_of_engine (inp : CycleInput) {s t : State} (h : t.engine = s.engine) :
    portEvents inp t = portEvents inp s := by
  change portEvents inp t.engine = portEvents inp s.engine
  rw [h]

/-- The encryptions a command has completed: two a round, and in ENC_B that of block A. -/
def encryptionsDone (s : State) : Nat := 2 * completedRounds s + if s.fsm = .encB then 1 else 0

theorem encryptionsDone_of_not_encB {s : State} (h : s.fsm ≠ .encB) : encryptionsDone s = 2 * completedRounds s := by
  simp [encryptionsDone, h]

theorem encryptionsDone_of_not_inRound {s : State} (h : s.fsm.inRound = false) :
    encryptionsDone s = 2 * (commandCount s).toNat := by
  rw [encryptionsDone_of_not_encB (fun e => by simp [e, Fsm.inRound] at h), completedRounds_of_not_inRound h]

section
variable {s : State} (inp : CycleInput)

theorem encryptionsDone_stepEncA (hf : s.fsm = .encA) :
    encryptionsDone (stepEncA inp s) = encryptionsDone s + (encryptions (portEvents inp s)).length := by
  unfold stepEncA
  split
  case isTrue hack =>
    have hcount : completedRounds { s with buf := setBlockA s.buf (encAnswer inp s (blockA s.buf)), fsm := .encB } =
        completedRounds s := by simp [completedRounds, hf, Fsm.inRound]
    simp [encryptionsDone, hcount, hf, portEvents, hack, encryptions]
  case isFalse hwait => simp [portEvents, hf, hwait, encryptions]

theorem encryptionsDone_stepEncB (hp : Progress s) (hf : s.fsm = .encB) :
    encryptionsDone (stepEncB inp s) = encryptionsDone s + (encryptions (portEvents inp s)).length := by
  unfold stepEncB
  split
  case isTrue hack =>
    have hcount : ∀ b, completedRounds (roundComplete { s with buf := b }) = completedRounds s + 1 :=
      fun b => completedRounds_roundComplete (s := { s with buf := b }) hp hf
    rw [encryptionsDone_of_not_encB (roundComplete_fsm_ne_encB _), hcount]
    simp [encryptionsDone, hf, portEvents, hack, encryptions, Nat.mul_add]
  case isFalse hwait => simp [portEvents, hf, hwait, encryptions]

/-- Outside the rounds a step that leaves the command's count alone completes no encryption. -/
theorem encryptionsDone_of_unchanged {t : State} (hs : s.fsm.inRound = false) (ht : t.fsm.inRound = false)
    (hcount : commandCount t = commandCount s) : encryptionsDone t = encryptionsDone s := by
  rw [encryptionsDone_of_not_inRound hs, encryptionsDone_of_not_inRound ht, hcount]

theorem encryptionsDone_stepKeysetup (hf : s.fsm = .keysetup) :
    encryptionsDone (stepKeysetup inp s) = encryptionsDone s := by
  have hs : s.fsm.inRound = false := by simp [hf, Fsm.inRound]
  unfold stepKeysetup
  split
  · cases ho : s.op
    case transform => by_cases hr : s.rounds = 0#64 <;> simp [encryptionsDone, completedRounds, ho, hf, hr]
    case calibrate => exact encryptionsDone_of_unchanged hs rfl (by simp [commandCount, ho])
  · rfl

/-- A batch begins with none of its rounds completed (R158). -/
theorem encryptionsDone_stepBatchCheck (hf : s.fsm = .batchCheck) :
    encryptionsDone (stepBatchCheck s) = encryptionsDone s := by
  unfold stepBatchCheck
  split
  · exact encryptionsDone_of_unchanged (by simp [hf, Fsm.inRound]) rfl rfl
  · cases ho : s.op <;> simp [encryptionsDone, completedRounds, ho, hf, Fsm.inRound]

/-- Every step counts the encryptions that complete in its cycle (R154 to R159). -/
theorem encryptionsDone_sequencerStep (h : BlockInv s) : encryptionsDone (sequencerStep s.fsm inp s) =
    encryptionsDone s + (encryptions (portEvents inp s)).length := by
  have silent : (encryptions (portEvents inp s)).length = 0 → encryptionsDone (sequencerStep s.fsm inp s) =
      encryptionsDone s → encryptionsDone (sequencerStep s.fsm inp s) =
      encryptionsDone s + (encryptions (portEvents inp s)).length := fun hnone hcount => by omega
  cases hf : s.fsm <;> simp only [hf, sequencerStep] at silent ⊢
  case idle => simp [portEvents, hf, encryptions]
  case keysetup =>
    exact silent (by simp only [portEvents, hf]; split <;> rfl) (encryptionsDone_stepKeysetup inp hf)
  case t0 =>
    refine silent (by simp [portEvents, hf, encryptions]) ?_
    unfold stepT0
    split <;> exact encryptionsDone_of_unchanged (by simp [hf, Fsm.inRound]) rfl rfl
  case batchCheck => exact silent (by simp [portEvents, hf, encryptions]) (encryptionsDone_stepBatchCheck hf)
  case encA => exact encryptionsDone_stepEncA inp hf
  case encB => exact encryptionsDone_stepEncB inp (progress_of_blockInv h (by simp [hf]) (by simp [hf])) hf
  case sample =>
    refine silent (by simp [portEvents, hf, encryptions]) ?_
    have hs : s.fsm.inRound = false := by simp [hf, Fsm.inRound]
    unfold stepSample
    split
    case h_1 => exact encryptionsDone_of_unchanged hs rfl rfl
    case h_2 t _ =>
      exact encryptionsDone_of_unchanged hs (by by_cases hup : s.budget ≤ elapsed s t <;> simp [hup, Fsm.inRound]) rfl
  case finish | fail =>
    exact silent (by simp [portEvents, hf, encryptions])
      (encryptionsDone_of_unchanged (by simp [hf, Fsm.inRound]) rfl rfl)
end

/-- A CALIBRATE that has sampled after a batch, or finishes, has counted a batch (R135, R158, R160). -/
def CountedABatch (s : State) : Prop :=
  s.op = .calibrate → s.fsm = .sample ∨ s.fsm = .finish → 8 ≤ s.acc.toNat

/-- Every step of a command keeps it: a batch is counted before SAMPLE, and SAT stands only on a nearly full count. -/
theorem countedABatch_sequencerStep (inp : CycleInput) {s : State} (hinv : BlockInv s) (h : CountedABatch s) :
    CountedABatch (sequencerStep s.fsm inp s) := by
  intro ho
  rw [sequencerStep_op] at ho
  have hcounted := h ho
  cases hf : s.fsm <;> simp only [sequencerStep]
  case idle => simp [hf]
  case finish | fail => simp [stepFinish, stepFail]
  case keysetup =>
    unfold stepKeysetup
    split <;> simp [ho, hf]
  case t0 =>
    unfold stepT0
    split <;> simp
  case encA =>
    unfold stepEncA
    split <;> simp [hf]
  case batchCheck =>
    unfold stepBatchCheck
    split
    case isTrue hfull =>
      have : ¬ s.acc.toNat + 8 ≤ 2 ^ 64 - 1 := fun hfits => (batch_fits_iff s.acc).2 hfits hfull
      exact fun _ => show 8 ≤ s.acc.toNat by omega
    case isFalse => simp
  case sample =>
    obtain ⟨f, hw⟩ := stepSample_writes inp s
    rw [hw]
    exact fun _ => hcounted (.inl hf)
  case encB =>
    have hp := progress_of_blockInv hinv (by simp [hf]) (by simp [hf])
    simp only [Progress, ho, hf] at hp
    obtain ⟨-, -, -, hroom⟩ := hp
    unfold stepEncB
    split
    case isFalse => simp [hf]
    case isTrue =>
      simp only [roundComplete, ho, roundCompleteCalibrate]
      split
      · simp only [toNat_add_batchCount hroom]; omega
      · simp

/-- What holds along the run of the command `o`, accepted in `s`, after the transactions `events`, without reset and
whatever the core answers. -/
structure CommandProgress (o : Op) (s : State) (events : List PortEvent) (u : State) : Prop where
  op : u.op = o
  inv : BlockInv u
  buf_written : u.bufWmask = 0xFF#8
  operands : u.rounds = s.rounds ∧ u.budget = s.budget ∧ u.ie = s.ie
  seed : u.fsm ≠ .idle → u.seed = s.seed
  result : u.fsm ≠ .idle → u.result = s.result
  encrypted : (encryptions events).length = encryptionsDone u
  counted : CountedABatch u

theorem commandProgress_of_accepted {o : Op} {s : State} (h : Accepted o s) : CommandProgress o s [] s where
  op := h.op
  inv := blockInv_of_accepted h
  buf_written := h.buf_written
  operands := ⟨rfl, rfl, rfl⟩
  seed := fun _ => rfl
  result := fun _ => rfl
  encrypted := by
    have hc := h.counters
    rw [encryptionsDone_of_not_inRound (by simp [h.fsm, Fsm.inRound])]
    cases o <;> simp_all [commandCount, h.op, encryptions]
  counted := by simp [CountedABatch, h.fsm]

/-- It speaks of the engine only. -/
theorem commandProgress_of_engine {o : Op} {s u v : State} {events : List PortEvent} (he : v.engine = u.engine)
    (h : CommandProgress o s events u) : CommandProgress o s events v := by
  obtain ⟨hop, hinv, hbuf, hoperands, hseed, hresult, hencrypted, hcounted⟩ := h
  have key : CommandProgress o s events u.engine :=
    ⟨hop, blockInv_of_engine (s := u) rfl hinv, hbuf, hoperands, hseed, hresult, hencrypted, hcounted⟩
  rw [← he] at key
  obtain ⟨hop, -, hbuf, hoperands, hseed, hresult, hencrypted, hcounted⟩ := key
  exact ⟨hop, blockInv_of_engine he hinv, hbuf, hoperands, hseed, hresult, hencrypted, hcounted⟩

/-- RESULT outlives every cycle but a command's last (R162). -/
theorem sequencerStep_result {f : Fsm} {inp : CycleInput} {s : State} (h : (sequencerStep f inp s).fsm ≠ .idle) :
    (sequencerStep f inp s).result = s.result := by
  obtain ⟨-, -, hresult, -⟩ := sequencerStep_writes f inp s rfl
  refine (hresult ?_).1
  rintro rfl
  exact h rfl

theorem encryptions_append (e e' : List PortEvent) : encryptions (e ++ e') = encryptions e ++ encryptions e' :=
  List.filterMap_append

theorem commandProgress_sequencerStep {o : Op} {s u : State} {events : List PortEvent} (inp : CycleInput)
    (h : CommandProgress o s events u) (hb : u.fsm ≠ .idle) :
    CommandProgress o s (events ++ portEvents inp u) (sequencerStep u.fsm inp u) where
  op := (sequencerStep_op _ _ _).trans h.op
  inv := blockInv_sequencerStep inp h.inv
  buf_written := (sequencerStep_bufWmask _ _ _).trans h.buf_written
  operands := by simpa using h.operands
  seed := fun hi => (sequencerStep_seed hi).trans (h.seed hb)
  result := fun hi => (sequencerStep_result hi).trans (h.result hb)
  encrypted := by
    rw [encryptionsDone_sequencerStep inp h.inv, encryptions_append, List.length_append, h.encrypted]
  counted := countedABatch_sequencerStep inp h.inv h.counted

theorem commandProgress_step {o : Op} {s u v : State} {events : List PortEvent} (h : CommandProgress o s events u)
    (hr : (cycleInput u).rst = false) (hb : u.fsm ≠ .idle) (hstep : step u = .next v) :
    CommandProgress o s (events ++ portEvents (cycleInput u) u) v := by
  obtain ⟨w, he, rfl⟩ := sequencerStep_of_busy_step hr hb hstep
  rw [portEvents_of_engine _ he.symm]
  exact commandProgress_sequencerStep _ (commandProgress_of_engine he h) (by rwa [← engine_fsm w, he])

/-! ## How a command ends -/

/-- The last cycle of a run. -/
theorem busyRun_last {env : Fsm → State → Prop} {p : Fsm} {s t : State} {events : List PortEvent} {n : Nat}
    (run : BusyRun env p s events (n + 1) t) : ∃ (q : Fsm) (u : State) (before : List PortEvent),
      BusyRun env p s before n u ∧ env q u ∧ u.fsm ≠ .idle ∧ step u = .next t ∧
      events = before ++ portEvents (cycleInput u) u := by
  obtain ⟨q, u, before, last, h₁, h₂, rfl⟩ := busyRun_split run
  cases h₂ with
  | cycle _ _ v _ rest _ henv hb hstep hrest =>
    cases hrest
    exact ⟨q, u, before, h₁, henv, hb, hstep, by simp⟩

section
variable {env : Fsm → State → Prop} {o : Op} {p : Fsm} {s t : State} {events : List PortEvent} {n : Nat}

/-- Every state of a command's run without reset. -/
theorem commandProgress_of_busyRun (henv : ∀ q u, env q u → noReset q u) (ha : Accepted o s)
    (run : BusyRun env p s events n t) : CommandProgress o s events t :=
  let ⟨_, h⟩ := busyRun_forward (fun _ before _ u => CommandProgress o s before u)
    (fun _ _ _ _ _ h he hb hstep => commandProgress_step h (henv _ _ he) hb hstep) run [] 0
    (commandProgress_of_accepted ha)
  h

/-- A command that has returned the block to idle did so in FINISH or in FAIL, after all of its transactions (R150). -/
theorem finish_or_fail_of_ended (henv : ∀ q u, env q u → noReset q u) (ha : Accepted o s)
    (run : BusyRun env p s events n t) (ht : t.fsm = .idle) : ∃ u, CommandProgress o s events u ∧
      (u.fsm = .finish ∧ t = stepFinish u ∨ u.fsm = .fail ∧ t = stepFail u) := by
  cases n with
  | zero => cases run; simp [ha.fsm] at ht
  | succ n =>
    obtain ⟨q, v, before, hbefore, he, hb, hstep, rfl⟩ := busyRun_last run
    obtain ⟨u, heng, rfl⟩ := sequencerStep_of_busy_step (henv q v he) hb hstep
    have hu := commandProgress_of_engine heng (commandProgress_of_busyRun henv ha hbefore)
    rw [← engine_fsm v, ← heng, engine_fsm] at hb
    rw [← portEvents_of_engine _ heng]
    have hlast : u.fsm = .finish ∨ u.fsm = .fail := by
      by_contra hno
      obtain ⟨hfinish, hfail⟩ := not_or.1 hno
      exact sequencerStep_fsm_ne_idle _ hb hfinish hfail ht
    rcases hlast with hf | hf
    all_goals
      have hsilent : portEvents (cycleInput v) u = [] := by simp [portEvents, hf]
      rw [hsilent, List.append_nil]
      refine ⟨u, hu, ?_⟩
      simp [hf, sequencerStep]

/-- The buffer that a command with a dutiful core leaves, and how many encryptions it took: two for each of the rounds
the command counted (R133, R135, R169). -/
theorem buffer_of_ended (ha : Accepted o s) (run : BusyRun dutiful p s events n t) (ht : t.fsm = .idle) :
    t.buf = afterRounds s.seed (commandCount t).toNat s.buf ∧
      (encryptions events).length = 2 * (commandCount t).toNat := by
  have hout : t.fsm.inRound = false := by simp [ht, Fsm.inRound]
  have hbuf := (dutifulRun_of_busyRun ha run).buf
  have hcount := (commandProgress_of_busyRun (fun _ _ h => h.1) ha run).encrypted
  rw [holdsRounds_iff_of_not_inRound hout] at hbuf
  rw [encryptionsDone_of_not_inRound hout] at hcount
  exact ⟨hbuf, hcount⟩

/-- An accepted TRANSFORM ends in FINISH, with all its rounds counted (R133, R156). -/
theorem transform_finishes (henv : ∀ q u, env q u → noReset q u) (ha : Accepted .transform s)
    (run : BusyRun env p s events n t) (ht : t.fsm = .idle) : ∃ u, CommandProgress .transform s events u ∧
      u.fsm = .finish ∧ u.rc = s.rounds ∧ u.sat = false ∧ u.err = .none ∧ t = stepFinish u := by
  obtain ⟨u, hu, ⟨hf, rfl⟩ | ⟨hf, -⟩⟩ := finish_or_fail_of_ended henv ha run ht
  · have hp := progress_of_blockInv hu.inv (by simp [hf]) (by simp [hf])
    simp only [Progress, hu.op, hf] at hp
    exact ⟨u, hu, hf, hp.2.trans hu.operands.1, hp.1, (hu.inv.no_outcome (by simp [hf])).2, rfl⟩
  · have := hu.inv.transform_path hu.op
    simp [hf, Fsm.onlyCalibrate] at this

end

/-- Settles O47: the command ends in FINISH, and the buffer is that of the count. -/
theorem transformEndState : Obligations.TransformEndState := by
  intro p s t events n ha run ht
  obtain ⟨hbuf, -⟩ := buffer_of_ended ha run ht
  obtain ⟨u, hu, hf, hrc, hsat, herr, rfl⟩ := transform_finishes (fun _ _ h => h.1) ha run ht
  have hcount : commandCount u = s.rounds := by simp [commandCount, hu.op, hrc]
  obtain ⟨hrounds, hbudget, hie⟩ := hu.operands
  rw [show commandCount (stepFinish u) = s.rounds from hcount] at hbuf
  exact ⟨hbuf, hcount, rfl, herr, hsat, rfl, rfl, hu.buf_written, hrounds, hbudget, hie, rfl, hrc⟩

/-- Settles O52: the end state is a function of the buffer, the seed and the count. -/
theorem transformIsDeterministic : Obligations.TransformIsDeterministic := by
  intro p p' s s' t t' events events' n n' ha ha' hbuf hseed hrounds run ht run' ht'
  obtain ⟨tbuf, tresult, -⟩ := transformEndState p s t events n ha run ht
  obtain ⟨tbuf', tresult', -⟩ := transformEndState p' s' t' events' n' ha' run' ht'
  exact ⟨by rw [tbuf, tbuf', hbuf, hseed, hrounds], by rw [tresult, tresult', hrounds]⟩

/-- `E^(m+n)` is `E^n` after `E^m` (R5). -/
theorem encPow_add (k : Bytes32) (m n : Nat) (b : Bytes16) :
    Config.encPow k (m + n) b = Config.encPow k n (Config.encPow k m b) := by
  induction n with
  | zero => rfl
  | succ n ih => exact congrArg (Config.enc k) ih

theorem afterRounds_add (k : Bytes32) (m n : Nat) (buf : Bytes32) :
    afterRounds k (m + n) buf = afterRounds k n (afterRounds k m buf) := by
  simp [afterRounds, encPow_add]

/-- Settles O53: rounds add up. -/
theorem transformIsAdditive : Obligations.TransformIsAdditive := by
  intro p₁ p₂ p₃ s₁ s₂ s₃ t₁ t₂ t₃ e₁ e₂ e₃ n₁ n₂ n₃ ha₁ ha₂ ha₃ run₁ ht₁ hbuf₂ hseed₂ run₂ ht₂ hbuf₃ hseed₃ hsum
    run₃ ht₃
  have hend₁ := (transformEndState _ _ _ _ _ ha₁ run₁ ht₁).1
  have hend₂ := (transformEndState _ _ _ _ _ ha₂ run₂ ht₂).1
  have hend₃ := (transformEndState _ _ _ _ _ ha₃ run₃ ht₃).1
  rw [hend₂, hbuf₂, hseed₂, hend₁, hend₃, hbuf₃, hseed₃, hsum, afterRounds_add]

/-- Settles O54: each half is encrypted by itself, once for every two encryptions of the command. -/
theorem halvesAreIndependent : Obligations.HalvesAreIndependent := by
  intro o p p' s s' t t' events events' n n' ha ha' hseed run ht run' ht' hlength
  obtain ⟨hbuf, hcount⟩ := buffer_of_ended ha run ht
  obtain ⟨hbuf', hcount'⟩ := buffer_of_ended ha' run' ht'
  have heq : (commandCount t).toNat = (commandCount t').toNat := by omega
  rw [hbuf, hbuf', hseed, heq]
  exact ⟨fun h => by simp [afterRounds, h], fun h => by simp [afterRounds, h]⟩

/-- Settles O55: the command ends in FINISH or in FAIL, and its count is that of whole batches. -/
theorem calibrateEndState : Obligations.CalibrateEndState := by
  intro p s t events n ha run ht
  obtain ⟨hbuf, hcount⟩ := buffer_of_ended ha run ht
  obtain ⟨u, hu, hend⟩ := finish_or_fail_of_ended (fun _ _ h => h.1) ha run ht
  have hb : u.fsm ≠ .idle := by obtain ⟨hf, -⟩ | ⟨hf, -⟩ := hend <;> simp [hf]
  have hacc : commandCount u = u.acc := by simp [commandCount, hu.op]
  have hwhole : (commandCount u).toNat % 8 = 0 := hacc ▸ hu.inv.calibrate_acc hu.op hb
  have hsame : commandCount t = commandCount u := by obtain ⟨-, rfl⟩ | ⟨-, rfl⟩ := hend <;> rfl
  obtain ⟨m, hm⟩ : ∃ m, (commandCount u).toNat = 8 * m := ⟨(commandCount u).toNat / 8, by omega⟩
  rw [hsame, hm] at hbuf hcount
  obtain ⟨hdone, herr⟩ := hu.inv.no_outcome hb
  refine ⟨m, by omega, hbuf, ?_⟩
  obtain ⟨hf, rfl⟩ | ⟨hf, rfl⟩ := hend
  · have hcounted : 8 ≤ (commandCount u).toNat := hacc ▸ hu.counted hu.op (.inr hf)
    exact ⟨rfl, rfl, hu.buf_written, rfl, .inl ⟨rfl, herr, by omega, hm⟩⟩
  · have hp := progress_of_blockInv hu.inv hb (by simp [hf])
    simp only [Progress, hu.op, hf] at hp
    exact ⟨rfl, rfl, hu.buf_written, rfl, .inr ⟨hdone, rfl, hu.result hb, hp.1⟩⟩

/-! ## TRANSFORM with ROUNDS = 0 (R140, R153) -/

/-- The transactions and the buffer of such a command: the key setup and nothing else. -/
def OnlySetsUp (s : State) (events : List PortEvent) (u : State) : Prop :=
  u.buf = s.buf ∧ events = if u.fsm = .keysetup then [] else [.setup s.seed]

/-- Without rounds the command goes from KEYSETUP to FINISH (R153). -/
theorem fsm_of_zero_rounds {u : State} (h : BlockInv u) (ho : u.op = .transform) (hrounds : u.rounds = 0#64)
    (hb : u.fsm ≠ .idle) : u.fsm = .keysetup ∨ u.fsm = .finish := by
  by_contra hno
  obtain ⟨hk, hfinish⟩ := not_or.1 hno
  have hp := progress_of_blockInv h hb hk
  cases hf : u.fsm <;> simp_all [Progress]

theorem onlySetsUp_step {s u v : State} {events : List PortEvent} (hrounds : s.rounds = 0#64)
    (hu : CommandProgress .transform s events u) (h : OnlySetsUp s events u) (hr : (cycleInput u).rst = false)
    (hb : u.fsm ≠ .idle) (hstep : step u = .next v) : OnlySetsUp s (events ++ portEvents (cycleInput u) u) v := by
  obtain ⟨w, he, rfl⟩ := sequencerStep_of_busy_step hr hb hstep
  have hw := commandProgress_of_engine he hu
  have hbw : w.fsm ≠ .idle := by rwa [← engine_fsm w, he]
  obtain ⟨hbuf, hevents⟩ : OnlySetsUp s events w := by
    obtain ⟨ebuf, -, -, -, -, -, -, -, -, -, -, efsm, -⟩ := engine_fields he
    rwa [OnlySetsUp, ebuf, efsm]
  rw [← portEvents_of_engine _ he]
  have hzero : w.rounds = 0#64 := hw.operands.1.trans hrounds
  obtain hf | hf := fsm_of_zero_rounds hw.inv hw.op hzero hbw
  · rw [hevents, hf]
    cases hack : (cycleInput u).ksAck with
    | true =>
      simp [OnlySetsUp, sequencerStep, stepKeysetup, portEvents, hf, hack, hbuf, hw.op, hzero, hw.seed hbw]
    | false => simp [OnlySetsUp, sequencerStep, stepKeysetup, portEvents, hf, hack, hbuf]
  · rw [hevents, hf]
    simp [sequencerStep, stepFinish, OnlySetsUp, hbuf, portEvents, hf]

/-- Settles O51, along the run: the command is in KEYSETUP with no transaction yet, or past it with that one. -/
theorem zeroRoundsIsIdentity : Obligations.ZeroRoundsIsIdentity := by
  intro p s t events n ha hrounds run ht
  obtain ⟨_, -, hbuf, hevents⟩ := busyRun_forward
    (fun _ before _ u => CommandProgress .transform s before u ∧ OnlySetsUp s before u)
    (fun _ _ _ _ _ ⟨hu, h⟩ hr hb hstep =>
      ⟨commandProgress_step hu hr hb hstep, onlySetsUp_step hrounds hu h hr hb hstep⟩)
    run [] 0 ⟨commandProgress_of_accepted ha, rfl, by simp [ha.fsm]⟩
  obtain ⟨u, hu, hf, hrc, -, -, rfl⟩ := transform_finishes (fun _ _ h => h) ha run ht
  exact ⟨hbuf, by simp [stepFinish, commandCount, hu.op, hrc, hrounds], rfl, by simpa [ht] using hevents⟩

end Sys2Proof.Machine
end

section
/-! SUPPORT. Proofs about the sequencer's steps (spec/42_round_engine.md): the next state of each sequencer state, how long
a request stands, and what an unrequested answer does. -/

namespace Sys2Proof.Machine

/-! ## The next state of each sequencer state (R150 to R163) -/

/-- A busy cycle without reset is the sequencer's step of its state, on what the host's access left: a state that differs
in WR_IGNORED and the model's own fields only (R61, R102). -/
theorem step_of_busy_onBus {s : State} (hf : s.fsm ≠ .idle) (hr : (cycleInput s).rst = false) :
    ∃ w r l c, step s = .next (sequencerStep s.fsm (cycleInput s)
      { s with wrIgnored := w, busRead := r, script := l, cycle := c }) := by
  obtain ⟨_, hbus, hstep⟩ := step_of_busy ((busy_iff s).2 hf) hr
  cases hbus <;> exact ⟨_, _, _, _, hstep⟩

/-- Settles O26, for a waiting and an answered key setup. -/
theorem keySetupStep : Obligations.KeySetupStep := by
  intro s hf hr
  obtain ⟨w, r, l, c, hstep⟩ := step_of_busy_onBus (by simp [hf]) hr
  refine ⟨_, hstep, fun hwait => ?_, fun hack => ?_⟩
  · simp [hf, sequencerStep, stepKeysetup, hwait, State.engine]
  · have hzero : s.rounds = 0#64 ↔ s.rounds.toNat = 0 := by bv_omega
    cases s.op <;> simp [hf, sequencerStep, stepKeysetup, hack, State.engine, hzero]

/-- Settles O27, for a valid and an invalid time. -/
theorem startTimeStep : Obligations.StartTimeStep := by
  intro s hf hr
  obtain ⟨w, r, l, c, hstep⟩ := step_of_busy_onBus (by simp [hf]) hr
  refine ⟨_, hstep, fun hinvalid => ?_, fun hvalid => ?_⟩
  · simp [hf, sequencerStep, stepT0, timeSample, hinvalid, State.engine, raiseError]
  · simp [hf, sequencerStep, stepT0, timeSample, hvalid, State.engine]

/-- Settles O28, by BATCH_CHECK's comparison without subtraction. -/
theorem batchCheckStep : Obligations.BatchCheckStep := by
  intro s hf hr
  obtain ⟨w, r, l, c, hstep⟩ := step_of_busy_onBus (by simp [hf]) hr
  refine ⟨_, hstep, fun hfull => ?_, fun hfits => ?_⟩
  · have : maxCount - batchCount < s.acc := by
      by_contra hfits
      have := (batch_fits_iff s.acc).1 hfits
      omega
    simp [hf, sequencerStep, stepBatchCheck, this, State.engine]
  · have := (batch_fits_iff s.acc).2 hfits
    simp [hf, sequencerStep, stepBatchCheck, this, State.engine]

/-- The answer to an encryption, whatever the host's access did before it: the value the core drives, or `Enc(k, b)` of a
dutiful core with its schedule (R173). -/
theorem encAnswer_eq {inp : CycleInput} {s u : State} {b o : Bytes16}
    (h : inp.encOut = some o ∨ inp.encOut = none ∧ ∃ k, s.sched = some k ∧ o = Config.enc k b)
    (hu : u.sched = s.sched) : encAnswer inp u b = o := by
  obtain hdriven | ⟨hnone, k, hsched, rfl⟩ := h
  · exact encAnswer_driven u b hdriven
  · exact encAnswer_dutiful b hnone (hu.trans hsched)

/-- Settles O29: the answer is block A, and block B stays. -/
theorem encryptBlockAStep : Obligations.EncryptBlockAStep := by
  intro s o hf hr ho
  obtain ⟨w, r, l, c, hstep⟩ := step_of_busy_onBus (by simp [hf]) hr
  refine ⟨_, hstep, fun hwait => ?_, fun hack => ⟨setBlockA s.buf o, ?_, fun i hi => ?_, fun i hlow hhigh => ?_⟩⟩
  · simp [hf, sequencerStep, stepEncA, hwait, State.engine]
  · simp only [hf, sequencerStep, stepEncA, hack, if_true]
    rw [encAnswer_eq ho] <;> rfl
  · exact byteAt_setBlockA_own _ _ i hi
  · have := byteAt_setBlockA_other s.buf o (i - 16) (by omega)
    rwa [show 16 + (i - 16) = i by omega] at this

/-- Settles O30: the answer is block B, block A stays, and the new count is compared modulo 2^64. -/
theorem encryptBlockBStepOfTransform : Obligations.EncryptBlockBStepOfTransform := by
  intro s o hf hop hr ho
  obtain ⟨w, r, l, c, hstep⟩ := step_of_busy_onBus (by simp [hf]) hr
  refine ⟨_, hstep, fun hwait => ?_, fun hack => ⟨setBlockB s.buf o, ?_, fun i hi => ?_, fun i hi => ?_⟩⟩
  · simp [hf, sequencerStep, stepEncB, hwait, State.engine]
  · have hlast : s.rc + 1#64 = s.rounds ↔ (s.rc.toNat + 1) % 2 ^ 64 = s.rounds.toNat := by
      rw [← BitVec.toNat_inj, BitVec.toNat_add]
      rfl
    simp only [hf, sequencerStep, stepEncB, hack, if_true, roundComplete, hop, roundCompleteTransform, hlast]
    rw [encAnswer_eq ho] <;> rfl
  · exact byteAt_setBlockB_other _ _ i hi
  · exact byteAt_setBlockB_own _ _ i hi

/-- Settles O31: as for TRANSFORM, and the eighth round of a batch is the one at position 7. -/
theorem encryptBlockBStepOfCalibrate : Obligations.EncryptBlockBStepOfCalibrate := by
  intro s o hf hop hr ho
  obtain ⟨w, r, l, c, hstep⟩ := step_of_busy_onBus (by simp [hf]) hr
  refine ⟨_, hstep, fun hwait => ?_, fun hack => ⟨setBlockB s.buf o, fun i hi => ?_, fun i hi => ?_, fun hlast => ?_,
    fun hmore => ?_⟩⟩
  · simp [hf, sequencerStep, stepEncB, hwait, State.engine]
  · exact byteAt_setBlockB_other _ _ i hi
  · exact byteAt_setBlockB_own _ _ i hi
  · have hbc : s.bc + 1#4 = batchPosition := (add_one_eq_batchPosition_iff s.bc).2 hlast
    simp only [hf, sequencerStep, stepEncB, hack, if_true, roundComplete, hop, roundCompleteCalibrate, hbc]
    rw [encAnswer_eq ho] <;> rfl
  · have hbc : s.bc + 1#4 ≠ batchPosition := fun h => hmore ((add_one_eq_batchPosition_iff s.bc).1 h)
    simp only [hf, sequencerStep, stepEncB, hack, if_true, roundComplete, hop, roundCompleteCalibrate, hbc, if_false]
    rw [encAnswer_eq ho] <;> rfl

/-- Settles O32: the comparison with the budget is that of the 64-bit difference. -/
theorem sampleStep : Obligations.SampleStep := by
  intro s hf hr
  obtain ⟨w, r, l, c, hstep⟩ := step_of_busy_onBus (by simp [hf]) hr
  refine ⟨_, hstep, fun hinvalid => ?_, fun hvalid => ?_⟩
  · simp [hf, sequencerStep, stepSample, timeSample, hinvalid, State.engine, raiseError]
  · have hup : s.budget ≤ (cycleInput s).time.now - s.t0 ↔
        s.budget.toNat ≤ ((cycleInput s).time.now.toNat + 2 ^ 64 - s.t0.toNat) % 2 ^ 64 := by
      rw [BitVec.le_def, BitVec.toNat_sub]
      have := s.t0.isLt
      rw [show 2 ^ 64 - s.t0.toNat + (cycleInput s).time.now.toNat =
        (cycleInput s).time.now.toNat + 2 ^ 64 - s.t0.toNat by omega]
    refine ⟨fun hreached => ?_, fun hearly => ?_⟩
    · simp only [hf, sequencerStep, stepSample, timeSample, hvalid, if_true, elapsed, hup, hreached]
      rfl
    · simp only [hf, sequencerStep, stepSample, timeSample, hvalid, if_true, elapsed, hup, Nat.not_le.2 hearly, if_false]
      rfl

/-- Settles O33, for the two ends of a command. -/
theorem finishAndFailSteps : Obligations.FinishAndFailSteps := by
  intro s hr
  refine ⟨fun hf => ?_, fun hf => ?_⟩
  all_goals
    obtain ⟨w, r, l, c, hstep⟩ := step_of_busy_onBus (by simp [hf]) hr
    refine ⟨_, hstep, ?_⟩
  · cases s.op <;>
      simp [hf, sequencerStep, stepFinish, commandCount, endCommand, schedClear, wipeSeed, State.engine]
  · simp [hf, sequencerStep, stepFail, recordError, endCommand, schedClear, wipeSeed, State.engine]

/-- Settles O23: an idle block has no sequencer step, and no access changes nothing. -/
theorem idleBlockKeepsItsState : Obligations.IdleBlockKeepsItsState := by
  intro s hf hr haccess
  have hstep : step s = .next (beginCycle s) := by
    rw [step_of_performAccess (u := beginCycle s) hr (by rw [haccess]; rfl), hf]
    rfl
  refine ⟨by simp [portEvents, hf], ?_, ?_, _, hstep, rfl, rfl, rfl⟩ <;>
    simp [ports_of_noReset hr, setupRequest, encryptRequest, hf]

/-! ## Requests and answers (R170 to R175) -/

/-- The cipher port's answer the block waits for does not come in a cycle with the inputs `inp`. -/
def Waits (inp : CycleInput) (s : State) : Prop :=
  s.fsm = .keysetup ∧ inp.ksAck = false ∨ (s.fsm = .encA ∨ s.fsm = .encB) ∧ inp.encAck = false

theorem waits_busy {inp : CycleInput} {s : State} (h : Waits inp s) : s.fsm ≠ .idle := by
  obtain ⟨hf, -⟩ | ⟨hf | hf, -⟩ := h <;> simp [hf]

/-- The sequencer's step of a waiting block changes nothing. -/
theorem sequencerStep_of_waits {inp : CycleInput} {s u : State} (h : Waits inp s) : sequencerStep s.fsm inp u = u := by
  obtain ⟨hf, hack⟩ | ⟨hf | hf, hack⟩ := h <;>
    simp [hf, sequencerStep, stepKeysetup, stepEncA, stepEncB, hack]

/-- A waiting block takes its inputs off the list and stays as it is (R175). -/
theorem step_of_waits {s : State} (h : Waits (cycleInput s) s) (hr : (cycleInput s).rst = false) :
    ∃ t, step s = .next t ∧ t.engine = s.engine ∧ t.script = s.script.tail := by
  obtain ⟨u, hbus, hstep⟩ := step_of_busy ((busy_iff s).2 (waits_busy h)) hr
  rw [sequencerStep_of_waits h] at hstep
  refine ⟨u, hstep, busOnly_engine hbus, ?_⟩
  cases hbus <;> rfl

/-- A block that waits for as long as its listed inputs go stays as it is, cycle after cycle. -/
theorem run_of_waits : ∀ (n : Nat) (s : State), n ≤ s.script.length →
    (∀ inp, inp ∈ s.script → inp.rst = false ∧ Waits inp s) →
    ∃ t, Host.Core.run core n s = .next t ∧ t.engine = s.engine
  | 0, s, _, _ => ⟨s, rfl, rfl⟩
  | n + 1, s, hlength, hwaits => by
    cases hscript : s.script with
    | nil => simp [hscript] at hlength
    | cons inp rest =>
      rw [hscript] at hlength hwaits
      have hinp := cycleInput_of_script hscript
      obtain ⟨hr, hw⟩ := hwaits inp (.head rest)
      obtain ⟨u, hstep, heng, hrest⟩ := step_of_waits (s := s) (by rwa [hinp]) (by rwa [hinp])
      rw [hscript, List.tail_cons] at hrest
      have hfsm : u.fsm = s.fsm := by rw [← engine_fsm u, heng, engine_fsm]
      have hlength' : n ≤ u.script.length := by rw [hrest]; exact Nat.le_of_succ_le_succ hlength
      obtain ⟨t, hrun, ht⟩ := run_of_waits n u hlength' fun inp' hmem => by
        rw [hrest] at hmem
        rw [Waits, hfsm]
        exact hwaits inp' (.tail inp hmem)
      have hcore : core.step s = .next u := hstep
      exact ⟨t, by simp only [Host.Core.run, hcore]; exact hrun, ht.trans heng⟩

/-- Settles O34, cycle by cycle. -/
theorem unansweredRequestsWaitForever : Obligations.UnansweredRequestsWaitForever := by
  intro n s hlength hwaits
  refine run_of_waits n s hlength fun inp hmem => ?_
  obtain ⟨hf, hall⟩ | ⟨hf, hall⟩ := hwaits
  · exact ⟨(hall inp hmem).1, .inl ⟨hf, (hall inp hmem).2⟩⟩
  · exact ⟨(hall inp hmem).1, .inr ⟨hf, (hall inp hmem).2⟩⟩

/-- Only KEYSETUP looks at `ks_ack` (R174). -/
theorem sequencerStep_withKsAck {f : Fsm} (hf : f ≠ .keysetup) (inp : CycleInput) (ack : Bool) (s : State) :
    sequencerStep f { inp with ksAck := ack } s = sequencerStep f inp s := by
  cases f
  case keysetup => exact absurd rfl hf
  all_goals rfl

/-- Only ENC_A and ENC_B look at `enc_ack` and `enc_out` (R174). -/
theorem sequencerStep_withEncAck {f : Fsm} (hA : f ≠ .encA) (hB : f ≠ .encB) (inp : CycleInput) (ack : Bool)
    (out : Option Bytes16) (s : State) :
    sequencerStep f { inp with encAck := ack, encOut := out } s = sequencerStep f inp s := by
  cases f
  case encA => exact absurd rfl hA
  case encB => exact absurd rfl hB
  all_goals rfl

/-- Two inputs with the same reset and access, alike to the sequencer, make the same cycle. -/
theorem step_of_equal_inputs {s : State} {inp inp' : CycleInput} {rest : List CycleInput} (hs : s.script = inp :: rest)
    (hrst : inp'.rst = inp.rst) (haccess : inp'.access = inp.access)
    (hseq : ∀ u, sequencerStep s.fsm inp' u = sequencerStep s.fsm inp u) :
    step { s with script := inp' :: rest } = step s := by
  have hbegin : beginCycle { s with script := inp' :: rest } = beginCycle s := by simp [beginCycle, hs]
  have hreset : ∀ u, resetCycle inp' u = resetCycle inp u := fun u => by simp [resetCycle, haccess]
  simp only [step_of_script hs, step_of_script (s := { s with script := inp' :: rest }) rfl, hbegin, hrst, haccess,
    hseq, hreset]

/-- Settles O35: the sequencer does not look at an answer it has not asked for. -/
theorem unrequestedAnswersAreIgnored : Obligations.UnrequestedAnswersAreIgnored := by
  intro s inp rest ack out hs
  exact ⟨fun hf => step_of_equal_inputs hs rfl rfl fun u => sequencerStep_withKsAck hf inp ack u,
    fun hA hB => step_of_equal_inputs hs rfl rfl fun u => sequencerStep_withEncAck hA hB inp ack out u⟩

/-- The requests of a block are those of its engine. -/
theorem requests_of_engine {s t : State} (h : t.engine = s.engine) :
    setupRequest t = setupRequest s ∧ encryptRequest t = encryptRequest s := by
  change setupRequest t.engine = setupRequest s.engine ∧ encryptRequest t.engine = encryptRequest s.engine
  exact ⟨by rw [h], by rw [h]⟩

/-- Settles O37: a waiting block keeps its request, and an answered key setup leaves KEYSETUP. -/
theorem requestsAreHeldUntilAnswered : Obligations.RequestsAreHeldUntilAnswered := by
  intro s t inp hr hr' hstep
  have held : Waits (cycleInput s) s → setupRequest t = setupRequest s ∧ encryptRequest t = encryptRequest s :=
    fun hw => by
      obtain ⟨u, hu, heng, -⟩ := step_of_waits hw hr
      cases hu.symm.trans hstep
      exact requests_of_engine heng
  simp only [ports_of_noReset hr']
  refine ⟨fun hf hack => ?_, fun hf hack => ?_, fun hf hack => ?_, fun hf hack => ?_⟩
  · rw [(held (.inl ⟨hf, hack⟩)).1]
    simp [setupRequest, hf]
  · obtain ⟨u, hu, -, hmoved⟩ := keySetupStep s hf hr
    cases hu.symm.trans hstep
    have hfsm := congrArg State.fsm (hmoved hack)
    have hleft : t.fsm ≠ .keysetup := by
      rw [← engine_fsm t, hfsm, engine_fsm]
      split
      · simp
      · split <;> simp
    exact Option.eq_none_iff_forall_ne_some.2 fun key h => hleft ((setupRequest_eq_some_iff t key).1 h).1
  · rw [(held (.inr ⟨.inl hf, hack⟩)).2]
    simp [encryptRequest, hf]
  · rw [(held (.inr ⟨.inr hf, hack⟩)).2]
    simp [encryptRequest, hf]

end Sys2Proof.Machine
end

section
/-! SUPPORT. Proofs about the port transactions of a command (spec/42_round_engine.md R150, R166, R168, R178): where the
sequencer goes, the kinds of transactions, and the traffic of a TRANSFORM and its bound. -/

namespace Sys2Proof.Machine

/-! ## Where the sequencer goes (R150) -/

/-- The sequencer states that R150's table gives after each state, once the cycle's answer is there. -/
def Fsm.targets : Fsm → List Fsm
  | .idle => [.idle]
  | .keysetup => [.t0, .encA, .finish]
  | .t0 => [.batchCheck, .fail]
  | .batchCheck => [.encA, .finish]
  | .encA => [.encB]
  | .encB => [.encA, .sample, .finish]
  | .sample => [.batchCheck, .finish, .fail]
  | .finish => [.idle]
  | .fail => [.idle]

/-- A block that does not wait goes to one of them. -/
theorem sequencerStep_fsm_mem_targets {inp : CycleInput} {s : State} (h : ¬ Waits inp s) :
    (sequencerStep s.fsm inp s).fsm ∈ s.fsm.targets := by
  cases hf : s.fsm <;> simp only [sequencerStep, Fsm.targets]
  case idle => simp [hf]
  case keysetup =>
    have hack : inp.ksAck = true := by simpa [Waits, hf] using h
    simp only [stepKeysetup, hack, if_true]
    cases s.op
    case transform => by_cases hr : s.rounds = 0#64 <;> simp [hr]
    case calibrate => simp
  case t0 => unfold stepT0; split <;> simp
  case batchCheck => unfold stepBatchCheck; split <;> simp
  case encA =>
    have hack : inp.encAck = true := by simpa [Waits, hf] using h
    simp [stepEncA, hack]
  case encB =>
    have hack : inp.encAck = true := by simpa [Waits, hf] using h
    simp only [stepEncB, hack, if_true]
    obtain h | h | h := roundComplete_fsm { s with buf := setBlockB s.buf (encAnswer inp s (blockB s.buf)) } <;>
      simp [h]
  case sample =>
    unfold stepSample
    split
    case h_1 => simp
    case h_2 t _ => by_cases hup : s.budget ≤ elapsed s t <;> simp [hup]
  case finish | fail => simp [stepFinish, stepFail]

/-- No step leads to KEYSETUP: a command enters it by its acceptance (R132, R134). -/
theorem sequencerStep_leaves_keysetup {inp : CycleInput} {s : State} (h : ¬ Waits inp s) :
    (sequencerStep s.fsm inp s).fsm ≠ .keysetup := by
  have hnone : ∀ f : Fsm, Fsm.keysetup ∉ f.targets := fun f => by cases f <;> decide
  exact fun e => hnone _ (e ▸ sequencerStep_fsm_mem_targets h)

theorem sequencerStep_fsm_ne_keysetup (inp : CycleInput) {s : State} (hk : s.fsm ≠ .keysetup) :
    (sequencerStep s.fsm inp s).fsm ≠ .keysetup := by
  by_cases hw : Waits inp s
  · rwa [sequencerStep_of_waits hw]
  · exact sequencerStep_leaves_keysetup hw

/-- A waiting block completes no transaction. -/
theorem portEvents_of_waits {inp : CycleInput} {s : State} (h : Waits inp s) : portEvents inp s = [] := by
  obtain ⟨hf, hack⟩ | ⟨hf | hf, hack⟩ := h <;> simp [portEvents, hf, hack]

/-! ## The kinds of transactions -/

theorem setups_append (e e' : List PortEvent) : setups (e ++ e') = setups e ++ setups e' := List.filterMap_append

theorem samples_append (e e' : List PortEvent) : samples (e ++ e') = samples e ++ samples e' := List.filterMap_append

/-- Every transaction is a key setup, an encryption or a time sample. -/
theorem length_eq_by_kind (events : List PortEvent) :
    events.length = (setups events).length + (encryptions events).length + (samples events).length := by
  induction events with
  | nil => rfl
  | cons e events ih =>
    cases e <;> simp only [setups, encryptions, samples, List.filterMap_cons, List.length_cons] at ih ⊢ <;> omega

/-- Only KEYSETUP sets a schedule up. -/
theorem setups_portEvents (inp : CycleInput) {s : State} (hk : s.fsm ≠ .keysetup) : setups (portEvents inp s) = [] := by
  cases hf : s.fsm <;> simp only [portEvents, hf]
  case keysetup => exact absurd hf hk
  case encA | encB => split <;> rfl
  all_goals rfl

/-- Only T0 and SAMPLE sample the time, one sample each. -/
theorem samples_portEvents (inp : CycleInput) (s : State) :
    samples (portEvents inp s) = if s.fsm = .t0 ∨ s.fsm = .sample then [timeSample inp] else [] := by
  cases hf : s.fsm <;> simp only [portEvents, hf]
  case keysetup | encA | encB => split <;> simp [samples]
  all_goals simp [samples]

section
variable {env : Fsm → State → Prop} {o : Op} {p : Fsm} {s t : State} {events : List PortEvent} {n : Nat}

/-- What holds of an accepted command before its first transaction, of the transactions and the engine, and is kept by
every sequencer step of the command without reset, holds all along its run. -/
theorem busyRun_sequencer_forward (P : List PortEvent → State → Prop)
    (engine : ∀ before u v, v.engine = u.engine → P before u → P before v)
    (keep : ∀ before u inp, CommandProgress o s before u → u.fsm ≠ .idle → P before u →
      P (before ++ portEvents inp u) (sequencerStep u.fsm inp u))
    (henv : ∀ q u, env q u → noReset q u) (ha : Accepted o s) (init : P [] s)
    (run : BusyRun env p s events n t) : P events t := by
  have step : ∀ q before (m : Nat) u v, CommandProgress o s before u ∧ P before u → env q u → u.fsm ≠ .idle →
      step u = .next v → CommandProgress o s (before ++ portEvents (cycleInput u) u) v ∧
        P (before ++ portEvents (cycleInput u) u) v := by
    intro q before _ u v ⟨hu, hP⟩ he hb hstep
    have hr := henv q u he
    refine ⟨commandProgress_step hu hr hb hstep, ?_⟩
    obtain ⟨w, heng, rfl⟩ := sequencerStep_of_busy_step hr hb hstep
    rw [← portEvents_of_engine _ heng]
    exact keep before w _ (commandProgress_of_engine heng hu) (by rwa [← engine_fsm w, heng])
      (engine before u w heng hP)
  obtain ⟨_, -, h⟩ := busyRun_forward (fun _ before _ u => CommandProgress o s before u ∧ P before u) step run [] 0
    ⟨commandProgress_of_accepted ha, init⟩
  exact h

/-- A command sets up one schedule, its seed's, when it leaves KEYSETUP (R152, R166). -/
theorem setups_of_busyRun (henv : ∀ q u, env q u → noReset q u) (ha : Accepted o s)
    (run : BusyRun env p s events n t) : setups events = if t.fsm = .keysetup then [] else [s.seed] := by
  refine busyRun_sequencer_forward (fun before u => setups before = if u.fsm = .keysetup then [] else [s.seed])
    (fun before u v he h => ?_) (fun before u inp hu hb h => ?_) henv ha (by simp [ha.fsm, setups]) run
  · rwa [← engine_fsm v, he]
  · rw [setups_append, h]
    by_cases hk : u.fsm = .keysetup
    · by_cases hw : Waits inp u
      · rw [sequencerStep_of_waits hw, portEvents_of_waits hw, hk]
        rfl
      · have hack : inp.ksAck = true := by simpa [Waits, hk] using hw
        rw [if_pos hk, if_neg (sequencerStep_leaves_keysetup hw)]
        simp [portEvents, hk, hack, setups, hu.seed hb]
    · rw [if_neg hk, if_neg (sequencerStep_fsm_ne_keysetup inp hk), setups_portEvents inp hk, List.append_nil]

end

/-! ## The traffic of a TRANSFORM (R166, R168, R205) -/

/-- The encryptions of the first `n` rounds under the key `k`, from the buffer `buf` on. -/
def roundsTraffic (k buf : Bytes32) (n : Nat) : List PortEvent :=
  (List.range n).flatMap fun i =>
    [.encrypt (Config.encPow k i (blockA buf)), .encrypt (Config.encPow k i (blockB buf))]

theorem roundsTraffic_succ (k buf : Bytes32) (n : Nat) : roundsTraffic k buf (n + 1) = roundsTraffic k buf n ++
    [.encrypt (Config.encPow k n (blockA buf)), .encrypt (Config.encPow k n (blockB buf))] := by
  simp [roundsTraffic, List.range_succ]

/-- The transactions of the TRANSFORM accepted in `s` that have completed when it stands in `u`. -/
def transformTraffic (s u : State) : List PortEvent :=
  match u.fsm with
  | .keysetup => []
  | .encB => .setup s.seed :: roundsTraffic s.seed s.buf u.rc.toNat ++
      [.encrypt (Config.encPow s.seed u.rc.toNat (blockA s.buf))]
  | _ => .setup s.seed :: roundsTraffic s.seed s.buf u.rc.toNat

theorem transformTraffic_of_not_encB {s u : State} (hk : u.fsm ≠ .keysetup) (hB : u.fsm ≠ .encB) :
    transformTraffic s u = .setup s.seed :: roundsTraffic s.seed s.buf u.rc.toNat := by
  cases h : u.fsm <;> simp_all [transformTraffic]

theorem dutifulRun_of_engine {o : Op} {s u v : State} (he : v.engine = u.engine) (h : DutifulRun o s u) :
    DutifulRun o s v := by
  obtain ⟨hop, hinv, hseed, hbuf⟩ := h
  have key : DutifulRun o s u.engine := ⟨hop, blockInv_of_engine (s := u) rfl hinv, hseed, hbuf⟩
  rw [← he] at key
  obtain ⟨hop, -, hseed, hbuf⟩ := key
  exact ⟨hop, blockInv_of_engine he hinv, hseed, hbuf⟩

section
variable {s u : State} (inp : CycleInput)

theorem transformTraffic_stepKeysetup (h : DutifulRun .transform s u) (hf : u.fsm = .keysetup) :
    transformTraffic s (stepKeysetup inp u) = transformTraffic s u ++ portEvents inp u := by
  have hrc : u.rc = 0#64 := h.inv.transform_start h.op hf
  have hseed : u.seed = s.seed := h.seed (by simp [hf])
  unfold stepKeysetup
  split
  case isTrue hack =>
    by_cases hr : u.rounds = 0#64 <;>
      simp [transformTraffic, portEvents, hf, hack, h.op, hr, hrc, hseed, roundsTraffic]
  case isFalse hwait => simp [transformTraffic, portEvents, hf, hwait]

/-- Block A's answer is requested with the block's value after the completed rounds (R154). -/
theorem transformTraffic_stepEncA (h : DutifulRun .transform s u) (hf : u.fsm = .encA) :
    transformTraffic s (stepEncA inp u) = transformTraffic s u ++ portEvents inp u := by
  have hbuf := (holdsRounds_iff_of_not_encB (by simp [hf])).1 h.buf
  rw [show completedRounds u = u.rc.toNat by simp [completedRounds, h.op]] at hbuf
  have hA : blockA u.buf = Config.encPow s.seed u.rc.toNat (blockA s.buf) := by simp [hbuf, afterRounds]
  unfold stepEncA
  split
  case isTrue hack => simp [transformTraffic, portEvents, hf, hack, hA]
  case isFalse hwait => simp [transformTraffic, portEvents, hf, hwait]

/-- So is block B's, whose answer completes the round (R155, R156). -/
theorem transformTraffic_stepEncB (h : DutifulRun .transform s u) (hf : u.fsm = .encB) :
    transformTraffic s (stepEncB inp u) = transformTraffic s u ++ portEvents inp u := by
  have hbuf := h.buf
  simp only [HoldsRounds, hf] at hbuf
  rw [show completedRounds u = u.rc.toNat by simp [completedRounds, h.op]] at hbuf
  have hB : blockB u.buf = Config.encPow s.seed u.rc.toNat (blockB s.buf) := by simp [hbuf, afterRounds]
  have hrc : (u.rc + 1#64).toNat = u.rc.toNat + 1 := by
    have := h.inv.transform_rounds h.op (by simp [hf, Fsm.inRound])
    bv_omega
  unfold stepEncB
  split
  case isTrue hack =>
    have hcount : ∀ b, (roundComplete { u with buf := b }).rc = u.rc + 1#64 := fun b => by
      simp [roundComplete, h.op, roundCompleteTransform]
    have hleft : ∀ b, (roundComplete { u with buf := b }).fsm ≠ .keysetup := fun b => by
      obtain e | e | e := roundComplete_fsm { u with buf := b } <;> simp [e]
    rw [transformTraffic_of_not_encB (hleft _) (roundComplete_fsm_ne_encB _), hcount, hrc, roundsTraffic_succ]
    simp [transformTraffic, portEvents, hf, hack, hB]
  case isFalse hwait => simp [transformTraffic, portEvents, hf, hwait]

/-- The traffic grows by the transactions of each cycle. -/
theorem transformTraffic_sequencerStep (h : DutifulRun .transform s u) (hb : u.fsm ≠ .idle) :
    transformTraffic s (sequencerStep u.fsm inp u) = transformTraffic s u ++ portEvents inp u := by
  have hpath := h.inv.transform_path h.op
  cases hf : u.fsm <;> simp only [sequencerStep]
  case idle => exact absurd hf hb
  case keysetup => exact transformTraffic_stepKeysetup inp h hf
  case encA => exact transformTraffic_stepEncA inp h hf
  case encB => exact transformTraffic_stepEncB inp h hf
  case finish => simp [transformTraffic, stepFinish, portEvents, hf]
  case t0 | batchCheck | sample | fail => simp [hf, Fsm.onlyCalibrate] at hpath

end

theorem transformTraffic_step {s u v : State} (h : DutifulRun .transform s u) (hr : (cycleInput u).rst = false)
    (hb : u.fsm ≠ .idle) (hstep : step u = .next v) :
    transformTraffic s v = transformTraffic s u ++ portEvents (cycleInput u) u := by
  obtain ⟨w, he, rfl⟩ := sequencerStep_of_busy_step hr hb hstep
  have hsame : transformTraffic s w = transformTraffic s u := by
    change transformTraffic s w.engine = transformTraffic s u.engine
    rw [he]
  rw [← portEvents_of_engine _ he, ← hsame]
  exact transformTraffic_sequencerStep _ (dutifulRun_of_engine he h) (by rwa [← engine_fsm w, he])

/-- Settles O48, along the run: the transactions so far are those of the rounds completed so far. -/
theorem transformPortTraffic : Obligations.TransformPortTraffic := by
  intro p s t events n ha run ht
  obtain ⟨_, -, htraffic⟩ := busyRun_forward
    (fun _ before _ u => DutifulRun .transform s u ∧ before = transformTraffic s u)
    (fun _ _ _ _ _ ⟨hu, h⟩ henv hb hstep =>
      ⟨dutifulRun_step hu henv hb hstep, by rw [h, transformTraffic_step hu henv.1 hb hstep]⟩)
    run [] 0 ⟨dutifulRun_of_accepted ha, by simp [transformTraffic, ha.fsm]⟩
  obtain ⟨-, -, -, -, -, -, -, -, -, -, -, -, hrc⟩ := transformEndState p s t events n ha run ht
  rw [transformTraffic_of_not_encB (by simp [ht]) (by simp [ht]), hrc] at htraffic
  exact htraffic

/-! ## The transactions of a TRANSFORM are bounded (R178) -/

section
variable {env : Fsm → State → Prop} {p : Fsm} {s t : State} {events : List PortEvent} {n : Nat}

/-- TRANSFORM samples no time (R205). -/
theorem samples_of_transform (henv : ∀ q u, env q u → noReset q u) (ha : Accepted .transform s)
    (run : BusyRun env p s events n t) : samples events = [] := by
  refine busyRun_sequencer_forward (fun before _ => samples before = [])
    (fun _ _ _ _ h => h) (fun before u inp hu _ h => ?_) henv ha rfl run
  have hpath := hu.inv.transform_path hu.op
  rw [samples_append, h, samples_portEvents, List.nil_append, if_neg]
  rintro (hf | hf) <;> simp [hf, Fsm.onlyCalibrate] at hpath

/-- The encryptions of a running TRANSFORM: at most two for each round, and fewer before FINISH (R156). -/
theorem transform_encryptions (hu : CommandProgress .transform s events t) (hb : t.fsm ≠ .idle)
    (hk : t.fsm ≠ .keysetup) : (encryptions events).length < 2 * s.rounds.toNat ∨
      t.fsm = .finish ∧ (encryptions events).length = 2 * s.rounds.toNat := by
  have hp := progress_of_blockInv hu.inv hb hk
  have hcount : completedRounds t = t.rc.toNat := by simp [completedRounds, hu.op]
  rw [hu.encrypted, encryptionsDone, hcount, ← hu.operands.1]
  cases hf : t.fsm <;> simp only [Progress, hu.op, hf] at hp
  case encA | encB =>
    have hlt : t.rc.toNat < t.rounds.toNat := hp.2
    simp
    omega
  case finish => simp [hp.2]

/-- The number of transactions of a TRANSFORM: its key setup and its encryptions. -/
theorem transform_length (henv : ∀ q u, env q u → noReset q u) (ha : Accepted .transform s)
    (run : BusyRun env p s events n t) :
    events.length = (if t.fsm = .keysetup then 0 else 1) + (encryptions events).length := by
  rw [length_eq_by_kind, setups_of_busyRun henv ha run, samples_of_transform henv ha run]
  split <;> simp

end
end Sys2Proof.Machine
end

section
/-! SUPPORT. Proofs about the end of a command in an environment whose core answers eventually (spec/42_round_engine.md R178;
spec/70_reset_and_hazards.md R241), and the termination of TRANSFORM. -/

namespace Sys2Proof.Machine

/-! ## Runs in an environment, cycle by cycle -/

theorem accepted_withScript {o : Op} {s : State} (h : Accepted o s) (l : List CycleInput) :
    Accepted o { s with script := l } :=
  ⟨h.fsm, h.op, h.buf_written, h.seed_written, h.flags, h.no_schedule, by cases o <;> exact h.counters⟩

theorem waits_of_fsm {inp : CycleInput} {s t : State} (h : t.fsm = s.fsm) : Waits inp t ↔ Waits inp s := by
  rw [Waits, Waits, h]

theorem fsm_of_engine {s t : State} (h : t.engine = s.engine) : t.fsm = s.fsm := by rw [← engine_fsm t, h, engine_fsm]

section
variable {env : Environment} {s : State} {es : List PortEvent} {n : Nat} {t : State}

/-- A busy command goes on with the sequencer's step on the inputs of the next cycle. -/
theorem commandRun_next (hnr : neverResets env) (run : CommandRun env s es n t) (hb : t.fsm ≠ .idle) :
    ∃ u : State, u.engine = t.engine ∧
      CommandRun env s (es ++ portEvents (env n) t) (n + 1) (sequencerStep u.fsm (env n) u) := by
  have hinp : cycleInput { t with script := [env n] } = env n := cycleInput_of_script rfl
  have hr : (cycleInput { t with script := [env n] }).rst = false := by rw [hinp]; exact hnr n
  obtain ⟨u, hbus, hstep⟩ := step_of_busy (s := { t with script := [env n] }) ((busy_iff _).2 hb) hr
  have he : u.engine = t.engine := busOnly_engine (s := { t with script := [env n] }) hbus
  rw [hinp] at hstep
  refine ⟨u, he, ?_⟩
  rw [fsm_of_engine he]
  exact commandRun_succ run hb (hnr n) hstep

/-- The last cycle of a run: the sequencer's step on the inputs of that cycle. -/
theorem commandRun_last (run : CommandRun env s es (n + 1) t) : ∃ (before : List PortEvent) (u v : State),
    CommandRun env s before n u ∧ u.fsm ≠ .idle ∧ v.engine = u.engine ∧ t = sequencerStep v.fsm (env n) v := by
  obtain ⟨q, before, last, u, hbefore, -, hlast⟩ := commandRun_prefix run
  cases hlast with
  | cycle _ _ v _ rest _ hr hb hstep hrest =>
    cases hrest
    obtain ⟨w, he, rfl⟩ := sequencerStep_of_busy_step hr hb hstep
    exact ⟨before, u, w, hbefore, hb, he, rfl⟩

/-- What holds of the engine in cycle `m` and is kept by every later step of the command holds in every later cycle. -/
theorem commandRun_forward (P : State → Prop) (engine : ∀ u v, v.engine = u.engine → P u → P v) {m : Nat}
    (init : ∀ es t, CommandRun env s es m t → P t)
    (keep : ∀ k u, m ≤ k → u.fsm ≠ .idle → P u → P (sequencerStep u.fsm (env k) u)) :
    ∀ (d : Nat) (es : List PortEvent) (t : State), CommandRun env s es (m + d) t → P t
  | 0, es, t, run => init es t run
  | d + 1, es, t, run => by
    obtain ⟨before, u, v, hbefore, hb, he, rfl⟩ := commandRun_last run
    have hu := commandRun_forward P engine init keep d before u hbefore
    exact keep (m + d) v (Nat.le_add_right m d) (by rwa [fsm_of_engine he]) (engine u v he hu)

/-! ## A command whose core answers does not wait for ever (R178) -/

/-- A command that waits until the inputs of cycle `n + d` answer it is found in that cycle, or an earlier one, with
an answer on its inputs. -/
theorem commandRun_until_answer (hnr : neverResets env) : ∀ (d n : Nat) (t : State), CommandRun env s es n t →
    t.fsm ≠ .idle → ¬ Waits (env (n + d)) t →
    ∃ (m : Nat) (u : State), CommandRun env s es m u ∧ u.fsm = t.fsm ∧ ¬ Waits (env m) u
  | 0, n, t, run, _, hanswer => ⟨n, t, run, rfl, hanswer⟩
  | d + 1, n, t, run, hb, hanswer => by
    by_cases hw : Waits (env n) t
    · obtain ⟨u, he, run'⟩ := commandRun_next hnr run hb
      have hfsm := fsm_of_engine he
      rw [portEvents_of_waits hw, List.append_nil, sequencerStep_of_waits ((waits_of_fsm hfsm).2 hw)] at run'
      obtain ⟨m, v, run'', hv, hdone⟩ := commandRun_until_answer hnr d (n + 1) u run' (by rwa [hfsm])
        (by rwa [waits_of_fsm hfsm, Nat.add_assoc, Nat.add_comm 1 d])
      exact ⟨m, v, run'', hv.trans hfsm, hdone⟩
    · exact ⟨n, t, run, rfl, hw⟩

/-- With a core that answers eventually a busy command comes to a cycle in which it does not wait. -/
theorem commandRun_answered (hnr : neverResets env) (hcore : coreAnswers env s) (run : CommandRun env s es n t)
    (hb : t.fsm ≠ .idle) : ∃ (m : Nat) (u : State), CommandRun env s es m u ∧ u.fsm = t.fsm ∧ ¬ Waits (env m) u := by
  obtain ⟨hsetup, hencrypt⟩ := hcore es n t run
  have hanswer : ∃ m, n ≤ m ∧ ¬ Waits (env m) t := by
    by_cases hk : t.fsm = .keysetup
    · obtain ⟨m, hm, hack⟩ := hsetup hk
      exact ⟨m, hm, by simp [Waits, hk, hack]⟩
    · by_cases hround : t.fsm.inRound = true
      · obtain ⟨m, hm, hack⟩ := hencrypt hround
        exact ⟨m, hm, by simp [Waits, hk, hack]⟩
      · exact ⟨n, le_rfl, fun h => by
          obtain ⟨hf, -⟩ | ⟨hf | hf, -⟩ := h
          · exact hk hf
          · simp [hf, Fsm.inRound] at hround
          · simp [hf, Fsm.inRound] at hround⟩
  obtain ⟨m, hm, hanswer⟩ := hanswer
  exact commandRun_until_answer hnr (m - n) n t run hb (by rwa [Nat.add_sub_cancel' hm])

/-- How far a sequencer state is from the next encryption or the command's end. -/
def Fsm.rank : Fsm → Nat
  | .idle => 0
  | .finish | .fail => 1
  | .encA | .encB => 2
  | .batchCheck => 3
  | .t0 | .sample => 4
  | .keysetup => 5

/-- A block that does not wait completes an encryption or comes nearer to the next one or to its end. -/
theorem encryption_or_rank_lt {inp : CycleInput} {u : State} (hw : ¬ Waits inp u) (hb : u.fsm ≠ .idle) :
    (encryptions (portEvents inp u)).length = 1 ∨ (sequencerStep u.fsm inp u).fsm.rank < u.fsm.rank := by
  have hgo := sequencerStep_fsm_mem_targets hw
  generalize (sequencerStep u.fsm inp u).fsm = g at hgo ⊢
  cases hf : u.fsm <;> simp only [hf, Fsm.targets] at hgo
  case idle => exact absurd hf hb
  case encA | encB =>
    have hack : inp.encAck = true := by simpa [Waits, hf] using hw
    exact .inl (by simp [portEvents, hf, hack, encryptions])
  all_goals exact .inr (by revert hgo; cases g <;> decide)

/-- How far a command of at most `bound` encryptions is from its end: the encryptions still to come, then the rank. -/
def distance (bound : Nat) (es : List PortEvent) (f : Fsm) : Nat := 6 * (bound - (encryptions es).length) + f.rank

/-- A busy command whose core answers eventually comes nearer to its end. -/
theorem commandRun_comes_nearer (hnr : neverResets env) (hcore : coreAnswers env s) {bound : Nat}
    (hbound : ∀ es n t, CommandRun env s es n t → (encryptions es).length ≤ bound) (run : CommandRun env s es n t)
    (hb : t.fsm ≠ .idle) : ∃ (es' : List PortEvent) (m : Nat) (u : State), CommandRun env s es' m u ∧
      distance bound es' u.fsm < distance bound es t.fsm := by
  obtain ⟨m, u, run', hfsm, hw⟩ := commandRun_answered hnr hcore run hb
  obtain ⟨v, he, run''⟩ := commandRun_next hnr run' (by rwa [hfsm])
  have hv : v.fsm = u.fsm := fsm_of_engine he
  have hmoved := encryption_or_rank_lt (u := v) (by rwa [waits_of_fsm hv]) (by rwa [hv, hfsm])
  have hle := hbound _ _ _ run''
  have hrank : ∀ f : Fsm, f.rank ≤ 5 := fun f => by cases f <;> decide
  have hfar := hrank (sequencerStep v.fsm (env m) v).fsm
  refine ⟨_, _, _, run'', ?_⟩
  rw [portEvents_of_engine _ he, hv, hfsm] at hmoved
  rw [hv, hfsm] at hfar ⊢
  rw [encryptions_append, List.length_append] at hle
  simp only [distance, encryptions_append, List.length_append]
  omega

/-- A command whose core answers eventually, and which completes boundedly many encryptions, ends. -/
theorem commandRun_ends (hnr : neverResets env) (hcore : coreAnswers env s) {bound : Nat}
    (hbound : ∀ es n t, CommandRun env s es n t → (encryptions es).length ≤ bound) :
    ∃ (es : List PortEvent) (n : Nat) (t : State), CommandRun env s es n t ∧ t.fsm = .idle := by
  have ends : ∀ (d : Nat) (es : List PortEvent) (n : Nat) (t : State), CommandRun env s es n t →
      distance bound es t.fsm = d → ∃ es n t, CommandRun env s es n t ∧ t.fsm = .idle := by
    intro d
    induction d using Nat.strong_induction_on with
    | _ d ih =>
      intro es n t run hd
      by_cases hb : t.fsm = .idle
      · exact ⟨es, n, t, run, hb⟩
      · obtain ⟨es', m, u, run', hlt⟩ := commandRun_comes_nearer hnr hcore hbound run hb
        exact ih _ (hd ▸ hlt) es' m u run' rfl
  exact ends _ [] 0 _ commandRun_zero rfl

end

/-! ## The end of a TRANSFORM -/

section
variable {env : Fsm → State → Prop} {p : Fsm} {s t : State} {events : List PortEvent} {n : Nat}

/-- A TRANSFORM has completed its `1 + 2N` transactions exactly when it finishes or has finished (R156, R166). -/
theorem transform_transactions (henv : ∀ q u, env q u → noReset q u) (ha : Accepted .transform s)
    (run : BusyRun env p s events n t) : events.length ≤ 1 + 2 * s.rounds.toNat ∧
      (events.length = 1 + 2 * s.rounds.toNat → t.fsm ≠ .idle → t.fsm = .finish) := by
  have hlength := transform_length henv ha run
  have ht := commandProgress_of_busyRun henv ha run
  by_cases hb : t.fsm = .idle
  · obtain ⟨u, hu, hf, hrc, -⟩ := transform_finishes henv ha run hb
    have hcount := hu.encrypted
    rw [encryptionsDone_of_not_inRound (by simp [hf, Fsm.inRound])] at hcount
    simp only [commandCount, hu.op, hrc] at hcount
    rw [hb, if_neg nofun] at hlength
    exact ⟨by omega, fun _ h => absurd hb h⟩
  by_cases hk : t.fsm = .keysetup
  · have hrc := ht.inv.transform_start ht.op hk
    have hcount := ht.encrypted
    rw [encryptionsDone_of_not_inRound (by simp [hk, Fsm.inRound])] at hcount
    simp only [commandCount, ht.op, hrc, BitVec.toNat_zero, Nat.mul_zero] at hcount
    rw [if_pos hk, hcount] at hlength
    exact ⟨by omega, fun h => by omega⟩
  · rw [if_neg hk] at hlength
    obtain hfew | ⟨hf, hall⟩ := transform_encryptions ht hb hk
    · exact ⟨by omega, fun h => by omega⟩
    · exact ⟨by omega, fun _ _ => hf⟩

end

/-- Settles O49: the transactions are bounded, after the last the command is in FINISH, and with a core that answers
eventually it ends. -/
theorem transformEndsAfterItsAnswers : Obligations.TransformEndsAfterItsAnswers := by
  have bounded : ∀ {p s t events n}, Accepted .transform s → BusyRun noReset p s events n t → _ :=
    fun ha run => transform_transactions (fun _ _ h => h) ha run
  refine ⟨fun p s t events n ha run => ⟨(bounded ha run).1, fun hall hb hr => ?_⟩, fun env s ha hnr hcore => ?_⟩
  · have hf := (bounded ha run).2 hall hb
    have ht := commandProgress_of_busyRun (fun _ _ h => h) ha run
    have hrc : t.rc = s.rounds := (ht.inv.transform_finish ht.op hf).trans ht.operands.1
    obtain ⟨u, hstep, he⟩ := (finishAndFailSteps t hr).1 hf
    obtain ⟨-, -, -, -, -, -, hresult, hdone, -, -, -, hfsm, -⟩ := engine_fields he
    exact ⟨u, hstep, hfsm, hdone, by rw [hresult]; simp [ht.op, hrc]⟩
  · have ha' : ∀ l, Accepted .transform { s with script := l } := accepted_withScript ha
    obtain ⟨es, n, t, run, ht⟩ := commandRun_ends hnr hcore (bound := 1 + 2 * s.rounds.toNat) fun es n t run =>
      (List.length_filterMap_le _ es).trans (bounded (ha' _) run).1
    obtain ⟨u, hu, -, hrc, -, -, rfl⟩ := transform_finishes (fun _ _ h => h) (ha' _) run ht
    exact ⟨es, n, _, run, ht, rfl, by simp [stepFinish, commandCount, hu.op, hrc]⟩

end Sys2Proof.Machine
end

section
/-! SUPPORT. Proofs about where a CALIBRATE stops and how many batches it runs (spec/42_round_engine.md R157 to R167, R177,
R178). -/

namespace Sys2Proof.Machine

/-! ## The time samples of a CALIBRATE (R157, R160, R161) -/

/-- No one of these samples has reached the budget. -/
def AllEarly (u : State) (early : List Count) : Prop := ∀ y, y ∈ early → y - u.t0 < u.budget

/-- The samples `r` of a CALIBRATE that goes on after `batches` batches: `t0`, then one early sample for each batch. -/
def GoesOn (r : List (Option Count)) (batches : Nat) (u : State) : Prop :=
  ∃ early : List Count, AllEarly u early ∧ r = (u.t0 :: early).map some ∧ early.length = batches

/-- The samples `r` of a CALIBRATE that reports its count: the last has reached the budget, or one more batch would not
fit (R161, R164). -/
def Reports (r : List (Option Count)) (u : State) : Prop :=
  ∃ early : List Count, AllEarly u early ∧
    (u.sat = false ∧ (∃ last, r = (u.t0 :: early ++ [last]).map some ∧ u.budget ≤ last - u.t0) ∧
        u.acc.toNat = 8 * (early.length + 1) ∨
      u.sat = true ∧ r = (u.t0 :: early).map some ∧ u.acc.toNat = 8 * early.length ∧ 2 ^ 64 - 1 < u.acc.toNat + 8)

/-- The samples `r` of a CALIBRATE that fails: the last is unavailable, and no one before has reached the budget (R157,
R160). -/
def Fails (r : List (Option Count)) (u : State) : Prop :=
  ∃ early : List Count, r = early.map some ++ [none] ∧ u.acc.toNat = 8 * early.length ∧
    ∀ b rest, early = b :: rest → ∀ y, y ∈ rest → y - b < u.budget

/-- The samples `r` of a CALIBRATE, by where it stands. -/
def CalibrateSamples (r : List (Option Count)) (u : State) : Prop :=
  match u.fsm with
  | .keysetup | .t0 => r = [] ∧ u.acc = 0#64
  | .batchCheck | .encA | .encB => ∃ m, GoesOn r m u ∧ u.acc.toNat = 8 * m
  | .sample => ∃ m, GoesOn r m u ∧ u.acc.toNat = 8 * (m + 1)
  | .finish => Reports r u
  | .fail => Fails r u
  | .idle => u.done = true ∧ u.result = u.acc ∧ Reports r u ∨ u.done = false ∧ u.err = .clockUnavailable ∧ Fails r u

section
variable {s u : State} {before : List PortEvent} {inp : CycleInput} {r : List (Option Count)}

theorem calibrateSamples_stepT0 (h : r = [] ∧ u.acc = 0#64) :
    CalibrateSamples (r ++ [timeSample inp]) (stepT0 inp u) := by
  obtain ⟨rfl, hacc⟩ := h
  unfold stepT0
  split
  case h_1 hnone => exact ⟨[], by simp [hnone], by simp [hacc], by simp⟩
  case h_2 t ht => exact ⟨0, ⟨[], by simp [AllEarly], by simp [ht], rfl⟩, by simp [hacc]⟩

theorem calibrateSamples_stepBatchCheck {m : Nat} (hgo : GoesOn r m u) (hacc : u.acc.toNat = 8 * m) :
    CalibrateSamples r (stepBatchCheck u) := by
  obtain ⟨early, hearly, hr, rfl⟩ := hgo
  unfold stepBatchCheck
  split
  case isTrue hfull =>
    have hover : ¬ u.acc.toNat + 8 ≤ 2 ^ 64 - 1 := fun hfits => (batch_fits_iff u.acc).2 hfits hfull
    exact ⟨early, hearly, .inr ⟨rfl, hr, hacc, Nat.lt_of_not_le hover⟩⟩
  case isFalse => exact ⟨_, ⟨early, hearly, hr, rfl⟩, hacc⟩

/-- A round adds a batch to the count when it is the batch's last (R159). -/
theorem calibrateSamples_roundComplete {m : Nat} (ho : u.op = .calibrate) (hroom : u.acc.toNat + 8 ≤ 2 ^ 64 - 1)
    (hgo : GoesOn r m u) (hacc : u.acc.toNat = 8 * m) : CalibrateSamples r (roundComplete u) := by
  obtain ⟨early, hearly, hr, rfl⟩ := hgo
  simp only [roundComplete, ho, roundCompleteCalibrate]
  split
  · refine ⟨_, ⟨early, hearly, hr, rfl⟩, ?_⟩
    simp only [toNat_add_batchCount hroom, hacc]
    rfl
  · exact ⟨_, ⟨early, hearly, hr, rfl⟩, hacc⟩

theorem calibrateSamples_stepSample {m : Nat} (hsat : u.sat = false) (hgo : GoesOn r m u)
    (hacc : u.acc.toNat = 8 * (m + 1)) : CalibrateSamples (r ++ [timeSample inp]) (stepSample inp u) := by
  obtain ⟨early, hearly, rfl, rfl⟩ := hgo
  unfold stepSample
  split
  case h_1 hnone =>
    refine ⟨u.t0 :: early, by simp [hnone], hacc, fun b rest hcons => ?_⟩
    cases hcons
    exact hearly
  case h_2 t ht =>
    by_cases hup : u.budget ≤ elapsed u t
    · simp only [hup, if_true]
      exact ⟨early, hearly, .inl ⟨hsat, ⟨t, by simp [ht], hup⟩, hacc⟩⟩
    · simp only [hup, if_false]
      refine ⟨early.length + 1, ⟨early ++ [t], fun y hy => ?_, by simp [ht], by simp⟩, hacc⟩
      obtain hy | hy := List.mem_append.1 hy
      · exact hearly y hy
      · rw [List.mem_singleton.1 hy]
        exact BitVec.not_le.1 hup

/-- Every step of a CALIBRATE keeps its samples in accord with where it stands. -/
theorem calibrateSamples_sequencerStep (hu : CommandProgress .calibrate s before u) (hb : u.fsm ≠ .idle)
    (h : CalibrateSamples (samples before) u) :
    CalibrateSamples (samples (before ++ portEvents inp u)) (sequencerStep u.fsm inp u) := by
  by_cases hw : Waits inp u
  · rwa [sequencerStep_of_waits hw, portEvents_of_waits hw, List.append_nil]
  rw [samples_append, samples_portEvents]
  cases hf : u.fsm <;> simp only [CalibrateSamples, hf] at h <;> simp only [sequencerStep, reduceCtorEq, or_self,
    or_true, true_or, if_true, if_false, List.append_nil]
  case idle => exact absurd hf hb
  case keysetup =>
    have hack : inp.ksAck = true := by simpa [Waits, hf] using hw
    simpa [stepKeysetup, hack, hu.op, CalibrateSamples] using h
  case t0 => exact calibrateSamples_stepT0 h
  case batchCheck => obtain ⟨m, hgo, hacc⟩ := h; exact calibrateSamples_stepBatchCheck hgo hacc
  case encA =>
    have hack : inp.encAck = true := by simpa [Waits, hf] using hw
    simp only [stepEncA, hack, if_true]
    exact h
  case encB =>
    have hack : inp.encAck = true := by simpa [Waits, hf] using hw
    have hroom := (hu.inv.calibrate_batch hu.op (by simp [hf, Fsm.inRound])).2
    obtain ⟨m, hgo, hacc⟩ := h
    simp only [stepEncB, hack, if_true]
    exact calibrateSamples_roundComplete hu.op hroom hgo hacc
  case sample =>
    have hp := progress_of_blockInv hu.inv hb (by simp [hf])
    simp only [Progress, hu.op, hf] at hp
    obtain ⟨m, hgo, hacc⟩ := h
    exact calibrateSamples_stepSample hp.1 hgo hacc
  case finish => exact .inl ⟨rfl, by simp [stepFinish, commandCount, hu.op], h⟩
  case fail => exact .inr ⟨(hu.inv.no_outcome hb).1, rfl, h⟩

end

/-- Settles O56: the samples of the command in the state in which it ended. -/
theorem calibrateStopsAtTheBudget : Obligations.CalibrateStopsAtTheBudget := by
  intro p s t events n ha run ht
  have hsetup := setups_of_busyRun (fun _ _ h => h) ha run
  have hu := commandProgress_of_busyRun (fun _ _ h => h) ha run
  have hcount := hu.encrypted
  rw [encryptionsDone_of_not_inRound (by simp [ht, Fsm.inRound])] at hcount
  simp only [commandCount, hu.op] at hcount
  have hend := busyRun_sequencer_forward (fun before u => CalibrateSamples (samples before) u)
    (fun before u v he h => by
      change CalibrateSamples (samples before) v.engine
      rw [he]
      exact h)
    (fun before u inp hu hb h => calibrateSamples_sequencerStep hu hb h) (fun _ _ h => h) ha
    (by simpa [CalibrateSamples, ha.fsm, samples] using ha.counters.1) run
  have hbudget : t.budget = s.budget := hu.operands.2.1
  simp only [CalibrateSamples, ht, Reports, Fails, AllEarly, hbudget] at hend
  refine ⟨by simpa [ht] using hsetup, ?_⟩
  obtain ⟨hdone, hresult, early, hearly, ⟨hsat, ⟨last, hr, hlast⟩, hacc⟩ | ⟨hsat, hr, hacc, hfull⟩⟩ |
    ⟨hdone, herr, early, hr, hacc, hearly⟩ := hend
  · exact .inl ⟨hdone, hsat, t.t0, early, last, hr, by rw [hresult, hacc], by omega, hearly, hlast⟩
  · exact .inr (.inl ⟨hdone, hsat, t.t0, early, hr, by rw [hresult, hacc], by omega, by rwa [hresult], hearly⟩)
  · exact .inr (.inr ⟨hdone, herr, early, hr, by omega, hearly⟩)

/-- Settles O57: no elapsed time is below a budget of 0, so no sample is early. -/
theorem zeroBudgetRunsOneBatch : Obligations.ZeroBudgetRunsOneBatch := by
  intro p s t events n ha hbudget run ht hdone
  have hnone : ∀ {b : Count} {early : List Count}, (∀ y, y ∈ early → y - b < s.budget) → early = [] := fun h =>
    List.eq_nil_iff_forall_not_mem.2 fun y hy => by simpa [hbudget] using h y hy
  obtain ⟨-, ⟨-, hsat, b, early, last, hr, hresult, -, hearly, -⟩ | ⟨-, -, b, early, -, hresult, -, hfull, hearly⟩ |
    ⟨hfailed, -⟩⟩ := calibrateStopsAtTheBudget p s t events n ha run ht
  · obtain rfl := hnone hearly
    exact ⟨BitVec.eq_of_toNat_eq hresult, hsat, by simp [hr]⟩
  · obtain rfl := hnone hearly
    simp [hresult] at hfull
  · simp [hdone] at hfailed

end Sys2Proof.Machine
end

section
/-! SUPPORT. Proofs about the bound on a CALIBRATE's batches and its end (spec/42_round_engine.md R158, R178;
spec/70_reset_and_hazards.md R241). -/

namespace Sys2Proof.Machine

/-! ## The batches fit the count (R158, R164) -/

/-- The count of a running CALIBRATE is of whole batches, and there is room for the batch it is in. -/
theorem calibrate_encryptions_le {s u : State} {events : List PortEvent} (hu : CommandProgress .calibrate s events u)
    (hb : u.fsm ≠ .idle) : (encryptions events).length ≤ 16 * ((2 ^ 64 - 1) / 8) := by
  have hacc : u.acc.toNat % 8 = 0 := hu.inv.calibrate_acc hu.op hb
  have hmax := u.acc.isLt
  rw [hu.encrypted]
  cases hround : u.fsm.inRound with
  | false =>
    rw [encryptionsDone_of_not_inRound hround]
    simp only [commandCount, hu.op]
    omega
  | true =>
    obtain ⟨hbc, hroom⟩ := hu.inv.calibrate_batch hu.op hround
    simp only [Config.batchSize] at hbc hroom
    simp only [encryptionsDone, completedRounds, hu.op, hround, if_true]
    split <;> omega

section
variable {env : Fsm → State → Prop} {p : Fsm} {s t : State} {events : List PortEvent} {n : Nat}

theorem calibrate_encryptions_bounded (henv : ∀ q u, env q u → noReset q u) (ha : Accepted .calibrate s)
    (run : BusyRun env p s events n t) : (encryptions events).length ≤ 16 * ((2 ^ 64 - 1) / 8) := by
  by_cases ht : t.fsm = .idle
  · obtain ⟨u, hu, hend⟩ := finish_or_fail_of_ended henv ha run ht
    exact calibrate_encryptions_le hu (by obtain ⟨hf, -⟩ | ⟨hf, -⟩ := hend <;> simp [hf])
  · exact calibrate_encryptions_le (commandProgress_of_busyRun henv ha run) ht

/-- A CALIBRATE ends with its count in RESULT or with the clock error (R162, R163). -/
theorem calibrate_outcome (henv : ∀ q u, env q u → noReset q u) (ha : Accepted .calibrate s)
    (run : BusyRun env p s events n t) (ht : t.fsm = .idle) :
    t.done = true ∧ t.err = .none ∧ t.result = t.acc ∨ t.done = false ∧ t.err = .clockUnavailable := by
  obtain ⟨u, hu, ⟨hf, rfl⟩ | ⟨hf, rfl⟩⟩ := finish_or_fail_of_ended henv ha run ht
  · exact .inl ⟨rfl, (hu.inv.no_outcome (by simp [hf])).2, by simp [stepFinish, commandCount, hu.op]⟩
  · exact .inr ⟨(hu.inv.no_outcome (by simp [hf])).1, rfl⟩

end

/-! ## With a clock that is always available no CALIBRATE fails (R157, R160) -/

/-- Only an unavailable sample leads to FAIL. -/
theorem sequencerStep_fsm_ne_fail {inp : CycleInput} {u : State} (hvalid : inp.time.valid = true) :
    (sequencerStep u.fsm inp u).fsm = .fail → u.fsm = .fail := by
  by_cases hw : Waits inp u
  · rw [sequencerStep_of_waits hw]; exact id
  have hgo := sequencerStep_fsm_mem_targets hw
  intro hfail
  rw [hfail] at hgo
  have htime : timeSample inp = some inp.time.now := (timeSample_eq_some_iff _ _).2 ⟨hvalid, rfl⟩
  cases hf : u.fsm <;> simp only [hf, sequencerStep] at hfail hgo
  case t0 => simp [stepT0, htime] at hfail
  case sample =>
    by_cases hup : u.budget ≤ elapsed u inp.time.now <;> simp [stepSample, htime, hup] at hfail
  all_goals revert hgo; decide

section
variable {env : Environment} {s : State} {es : List PortEvent} {n : Nat} {t : State}

theorem calibrate_err_of_valid_clock (ha : Accepted .calibrate s) (hvalid : ∀ m, (env m).time.valid = true)
    (run : CommandRun env s es n t) : t.err = .none := by
  refine (commandRun_forward (fun w => w.fsm ≠ .fail ∧ w.err = .none) (fun u v he h => ?_) (m := 0) (fun es t h => ?_)
    (fun k u _ _ h => ?_) n es t (by rwa [Nat.zero_add])).2
  · change v.engine.fsm ≠ .fail ∧ v.engine.err = .none
    rw [he]
    exact h
  · cases h
    exact ⟨by simp [ha.fsm], ha.flags.2.1⟩
  · obtain ⟨-, -, -, herr, -⟩ := sequencerStep_writes u.fsm (env k) u rfl
    exact ⟨fun e => h.1 (sequencerStep_fsm_ne_fail (hvalid k) e), (herr h.1).trans h.2⟩

/-! ## Once the time is up at most one more batch is counted (R161, R178) -/

/-- Nothing of a run comes after its command's end. -/
theorem commandRun_le_of_ended (run : CommandRun env s es n t) (ht : t.fsm = .idle) {till : List PortEvent} {m : Nat}
    {v : State} (run' : CommandRun env s till m v) : m ≤ n := by
  by_contra hlt
  obtain ⟨d, rfl⟩ : ∃ d, m = n + (d + 1) := ⟨m - n - 1, by omega⟩
  obtain ⟨q, e₁, e₂, w, hw, -, hrest⟩ := commandRun_prefix run'
  obtain ⟨-, rfl⟩ := commandRun_deterministic run hw
  cases hrest with
  | cycle _ _ _ _ _ _ _ hb => exact hb ht

/-- A sample taken when the time is up has reached the budget: the clock has not gone back (R161). -/
theorem budget_le_of_timeIsUp (hmono : timeIsMonotonic env) {u : State} {m k : Nat} (hup : timeIsUp env u m) (hmk : m ≤ k)
    {y : Count} (hy : timeSample (env k) = some y) : u.budget ≤ y - u.t0 := by
  obtain ⟨hvalid, rfl⟩ := (timeSample_eq_some_iff _ _).1 hy
  obtain ⟨hvalid', hreached⟩ | hnever := hup
  · have hlater := hmono m k hmk hvalid' hvalid
    rw [BitVec.le_def, BitVec.toNat_sub_of_le (BitVec.le_def.2 (by omega))]
    omega
  · simp [hnever k hmk] at hvalid

/-- `w` is a state of the command in `u`, past its start: `t0` and the budget are those of `u`. -/
structure PastStart (u w : State) : Prop where
  t0 : w.t0 = u.t0
  budget : w.budget = u.budget
  setup : w.fsm ≠ .keysetup
  sampled : w.fsm ≠ .t0

theorem pastStart_of_engine {u w x : State} (he : x.engine = w.engine) (h : PastStart u w) : PastStart u x := by
  have key : PastStart u w.engine := ⟨h.t0, h.budget, h.setup, h.sampled⟩
  rw [← he] at key
  exact ⟨key.t0, key.budget, key.setup, key.sampled⟩

theorem pastStart_sequencerStep {u w : State} (inp : CycleInput) (h : PastStart u w) :
    PastStart u (sequencerStep w.fsm inp w) := by
  by_cases hw : Waits inp w
  · rwa [sequencerStep_of_waits hw]
  obtain ⟨-, -, -, -, -, -, -, ht0, -⟩ := sequencerStep_writes w.fsm inp w rfl
  refine ⟨(ht0 h.sampled).trans h.t0, (sequencerStep_budget _ _ _).trans h.budget, sequencerStep_leaves_keysetup hw,
    fun e => ?_⟩
  have hgo := sequencerStep_fsm_mem_targets hw
  have honly : ∀ f : Fsm, Fsm.t0 ∈ f.targets → f = .keysetup := fun f => by cases f <;> decide
  exact h.setup (honly _ (e ▸ hgo))

/-- At most one batch beyond the count `a`: none has been added while another may still be begun or is under way. -/
structure OneMoreBatch (a : Nat) (w : State) : Prop where
  count : w.acc.toNat ≤ a + 8
  before : w.fsm = .batchCheck ∨ w.fsm = .encA ∨ w.fsm = .encB → w.acc.toNat ≤ a

theorem oneMoreBatch_of_engine {a : Nat} {w x : State} (he : x.engine = w.engine) (h : OneMoreBatch a w) :
    OneMoreBatch a x := by
  have key : OneMoreBatch a w.engine := ⟨h.count, h.before⟩
  rw [← he] at key
  exact ⟨key.count, key.before⟩

/-- The end of a round adds one batch at most, and then a time sample follows (R159). -/
theorem oneMoreBatch_roundComplete {a : Nat} {w : State} (h : w.acc.toNat ≤ a) : OneMoreBatch a (roundComplete w) := by
  have hkept : w.acc.toNat ≤ a + 8 := by omega
  simp only [roundComplete, roundCompleteTransform, roundCompleteCalibrate]
  split
  · exact ⟨hkept, fun _ => h⟩
  · split
    · refine ⟨?_, by simp⟩
      have hle : (w.acc + batchCount).toNat ≤ w.acc.toNat + 8 := by
        rw [BitVec.toNat_add]
        exact Nat.mod_le _ _
      exact hle.trans (by omega)
    · exact ⟨hkept, fun _ => h⟩

/-- When the time is up, no batch is begun after a time sample. -/
theorem oneMoreBatch_sequencerStep {a : Nat} {w : State} (inp : CycleInput)
    (hup : ∀ y, timeSample inp = some y → w.budget ≤ elapsed w y) (hk : w.fsm ≠ .keysetup) (ht0 : w.fsm ≠ .t0)
    (h : OneMoreBatch a w) : OneMoreBatch a (sequencerStep w.fsm inp w) := by
  obtain ⟨hcount, hbefore⟩ := h
  cases hf : w.fsm <;> simp only [sequencerStep]
  case keysetup => exact absurd hf hk
  case t0 => exact absurd hf ht0
  case idle => exact ⟨hcount, hbefore⟩
  case batchCheck =>
    have hacc := hbefore (.inl hf)
    unfold stepBatchCheck
    split <;> exact ⟨hcount, fun _ => hacc⟩
  case encA =>
    have hacc := hbefore (.inr (.inl hf))
    unfold stepEncA
    split <;> exact ⟨hcount, fun _ => hacc⟩
  case encB =>
    have hacc := hbefore (.inr (.inr hf))
    unfold stepEncB
    split
    · exact oneMoreBatch_roundComplete (w := { w with buf := _ }) hacc
    · exact ⟨hcount, hbefore⟩
  case sample =>
    unfold stepSample
    split
    case h_1 => exact ⟨hcount, by simp⟩
    case h_2 y hy => exact ⟨hcount, by simp [hup y hy]⟩
  case finish | fail => exact ⟨hcount, by simp [stepFinish, stepFail]⟩

/-- From the cycle in which the time is up on, a CALIBRATE past its start counts at most one more batch. -/
theorem acc_le_of_timeIsUp (hmono : timeIsMonotonic env) {before till : List PortEvent} {n₀ m : Nat} {u v : State}
    (runu : CommandRun env s before n₀ u) (hu : u.fsm = .batchCheck) (hm : n₀ ≤ m) (hup : timeIsUp env u m)
    (runv : CommandRun env s till m v) (run : CommandRun env s es n t) (hn : m ≤ n) : t.acc.toNat ≤ v.acc.toNat + 8 := by
  obtain ⟨d, rfl⟩ := Nat.exists_eq_add_of_le hm
  obtain ⟨d', rfl⟩ := Nat.exists_eq_add_of_le hn
  have past : PastStart u v := commandRun_forward (PastStart u) (fun _ _ => pastStart_of_engine) (m := n₀)
    (fun es w runw => by
      obtain ⟨-, rfl⟩ := commandRun_deterministic runu runw
      exact ⟨rfl, rfl, by simp [hu], by simp [hu]⟩)
    (fun k w _ _ => pastStart_sequencerStep (env k)) d till v runv
  refine (commandRun_forward (fun w => PastStart u w ∧ OneMoreBatch v.acc.toNat w)
    (fun _ _ he h => ⟨pastStart_of_engine he h.1, oneMoreBatch_of_engine he h.2⟩) (m := n₀ + d) (fun es w runw => ?_)
    (fun k w hk _ ⟨hpast, hmore⟩ => ⟨pastStart_sequencerStep (env k) hpast, ?_⟩) d' es t run).2.count
  · obtain ⟨-, rfl⟩ := commandRun_deterministic runv runw
    exact ⟨past, Nat.le_add_right _ _, fun _ => le_rfl⟩
  · refine oneMoreBatch_sequencerStep (env k) (fun y hy => ?_) hpast.setup hpast.sampled hmore
    rw [elapsed, hpast.t0, hpast.budget]
    exact budget_le_of_timeIsUp hmono hup hk hy

end

/-- Settles O59: the encryptions are bounded, so the command ends, and after the first cycle in which the time is up it
counts at most one more batch. -/
theorem calibrateBatchesAreBounded : Obligations.CalibrateBatchesAreBounded := by
  have bounded : ∀ {p s t events n}, Accepted .calibrate s → BusyRun noReset p s events n t → _ :=
    fun ha run => calibrate_encryptions_bounded (fun _ _ h => h) ha run
  refine ⟨fun p s t events n ha run => bounded ha run, fun env s ha hnr hcore => ?_⟩
  have ha' : ∀ l, Accepted .calibrate { s with script := l } := accepted_withScript ha
  obtain ⟨es, n, t, run, ht⟩ := commandRun_ends hnr hcore fun es n t run => bounded (ha' _) run
  have hend := calibrate_outcome (fun _ _ h => h) (ha' _) run ht
  refine ⟨es, n, t, run, ht, ?_, fun hvalid => ?_, fun duties before n₀ u runu hu => ?_⟩
  · obtain ⟨hdone, herr, -⟩ | hfailed := hend
    · exact .inl ⟨hdone, herr⟩
    · exact .inr hfailed
  · obtain ⟨hdone, -⟩ | ⟨-, herr⟩ := hend
    · exact hdone
    · simp [calibrate_err_of_valid_clock ha hvalid run] at herr
  · classical
    have hsome := duties.advances before n₀ u runu hu
    obtain ⟨hm, hup⟩ := Nat.find_spec hsome
    refine ⟨Nat.find hsome, hm, hup, fun k hk hlt h => Nat.find_min hsome hlt ⟨hk, h⟩, fun till v runv hdone => ?_⟩
    obtain ⟨-, -, hresult⟩ | ⟨hfailed, -⟩ := hend
    · rw [hresult]
      exact acc_le_of_timeIsUp duties.monotonic runu hu hm hup runv run (commandRun_le_of_ended run ht runv)
    · simp [hdone] at hfailed

end Sys2Proof.Machine
end

section
/-! SUPPORT. Proofs about errors, the interrupt and reset (spec/60_exceptions.md): the writes a busy block drops, when the
interrupt level stands and falls, and the cycle in which reset wins. -/

namespace Sys2Proof.Machine

/-! ## Writes dropped by a busy block (R102, R207) -/

/-- Settles O11: a word with `we = 1` is decoded to a write, and a busy block drops every write. -/
theorem busyWritesAreDropped : Obligations.BusyWritesAreDropped := by
  intro w s hwe hf
  exact exec_of_busy_write (by simp [isRead_decode, hwe]) ((busy_iff s).2 hf)

/-! ## The interrupt level (R210, R211) -/

/-- The interrupt level, as a proposition (R210). -/
theorem irq_iff (s : State) : s.irq = true ↔ s.ie = true ∧ (s.done = true ∨ s.err ≠ .none) := by
  simp [State.irq]

/-- The interrupt output is the level, and low during reset (R210, R230). -/
theorem ports_irq_iff (inp : CycleInput) (s : State) :
    (ports inp s).irq = true ↔ inp.rst = false ∧ s.irq = true := by
  cases hr : inp.rst with
  | false => simp [ports_of_noReset hr]
  | true => simp [ports, hr]

/-- A command write keeps IRQ_EN when the code's effect does. -/
theorem commandWrite_ie {effect : State → State} (heffect : ∀ u, (effect u).ie = u.ie) (s : State) :
    (commandWrite effect s).ie = s.ie := by
  cases hb : s.busy with
  | false => rw [commandWrite_of_idle hb, heffect, clearFlags_ie]
  | true => rw [commandWrite_of_busy hb, dropWrite_ie]

/-- A command that needs its arguments keeps IRQ_EN, accepted or rejected, when its acceptance does. -/
theorem startCommand_ie {accept : State → State} (haccept : ∀ u, (accept u).ie = u.ie) (s : State) :
    (startCommand accept s).ie = s.ie := by
  cases hargs : argumentsPresent s with
  | true => rw [startCommand_of_present hargs, haccept]
  | false => rw [startCommand_of_missing hargs, recordError_ie]

/-- No command writes IRQ_EN, whatever its code (R33, R136). -/
theorem exec_command_ie {w : AccessWord} {s t : State} (hwe : w.we = 1#1) (hword : w.word = 0#6)
    (h : exec (decode w) s = .next t) : t.ie = s.ie := by
  rw [decode_of_command hwe hword] at h
  obtain ⟨x, ⟨-, hi⟩ | ⟨-, hi⟩ | ⟨-, hi⟩ | ⟨-, hi⟩ | ⟨-, c, hi | hi⟩⟩ := decodeCommand_by_code w.data w.lane
  all_goals
    rw [hi] at h
    cases h
  · exact commandWrite_ie (fun _ => rfl) s
  · exact commandWrite_ie (startCommand_ie acceptTransform_ie) s
  · exact commandWrite_ie (startCommand_ie acceptCalibrate_ie) s
  · exact commandWrite_ie clearData_ie s
  · exact commandWrite_ie (recordError_ie _) s
  · exact commandWrite_ie (recordError_ie _) s

/-- After a command write to an idle block DONE is 0, and an error stands exactly if the command was rejected: by a
reserved code, or without its arguments (R130, R137, R138). -/
theorem exec_command_err_iff {w : AccessWord} {s t : State} (hwe : w.we = 1#1) (hword : w.word = 0#6)
    (hf : s.fsm = .idle) (h : exec (decode w) s = .next t) :
    t.done = false ∧ (t.err ≠ .none ↔ 4 ≤ w.data.toNat % 16 ∨
      (w.data.toNat % 16 = 1 ∨ w.data.toNat % 16 = 2) ∧ (s.bufWmask ≠ 0xFF#8 ∨ s.seedWmask ≠ 0xFF#8)) := by
  obtain ⟨u, hu, hdone, -, -, hreserved, hmissing, hpresent, hother⟩ := commandWritePriority w s hwe hword hf
  cases hu.symm.trans h
  refine ⟨hdone, ?_⟩
  obtain hcode | hcode | hcode : 4 ≤ w.data.toNat % 16 ∨ (w.data.toNat % 16 = 1 ∨ w.data.toNat % 16 = 2) ∨
      (w.data.toNat % 16 = 0 ∨ w.data.toNat % 16 = 3) := by omega
  · simp [(hreserved hcode).1, hcode]
  · have hsmall : ¬ 4 ≤ w.data.toNat % 16 := by omega
    by_cases hargs : s.bufWmask = 0xFF#8 ∧ s.seedWmask = 0xFF#8
    · simp [(hpresent hcode hargs).1, hsmall, hargs]
    · simp [(hmissing hcode hargs).1, hcode, not_and_or.1 hargs]
  · have hnone := (hother hcode).1
    simp only [hnone, ne_eq, not_true, false_iff]
    omega

/-- Settles O38: a command write leaves IRQ_EN and the error of its rejection, a write to IRQ_EN leaves DONE and ERR, and
reset clears all three. -/
theorem interruptLevelAndHowItFalls : Obligations.InterruptLevelAndHowItFalls := by
  refine ⟨fun inp s => by rw [ports_irq_iff, irq_iff], fun s hf => ⟨fun w hwe hword => ?_, fun data lane => ?_⟩,
    fun s t hr hstep => ?_⟩
  · obtain ⟨t, ht⟩ := exec_completes (decode w) s
    obtain ⟨hdone, herr⟩ := exec_command_err_iff hwe hword hf ht
    refine ⟨t, ht, ?_⟩
    simp only [irq_iff, exec_command_ie hwe hword ht, hdone, Bool.false_eq_true, false_or, herr]
  · obtain ⟨-, hidle⟩ := operandWritesStoreTheirData s data lane
    exact ⟨_, (hidle hf).1, by simp [irq_iff]⟩
  · cases (step_of_reset hr).symm.trans hstep
    rfl

/-! ## Reset (R208, R230, R231) -/

/-- A read in a reset cycle is answered with 0 (R230). -/
theorem resetRead_of_read {w : AccessWord} (hwe : w.we = 0#1) : resetRead (some w) = some 0#32 := by
  simp [resetRead, hwe]

/-- Settles O24: reset wins over the access and the sequencer, and the reset cycle loads every register. -/
theorem resetCycleRestoresResetState : Obligations.ResetCycleRestoresResetState := by
  intro s inp rest hscript hr
  have hstep : step s = .next (resetCycle inp (beginCycle s)) := by rw [step_of_script hscript, if_pos hr]
  refine ⟨by simp [ports, hr], _, hstep, rfl, rfl, congrArg List.tail hscript, fun w hw hwe => ?_⟩
  change resetRead inp.access = some 0#32
  rw [hw, resetRead_of_read hwe]

end Sys2Proof.Machine
end

section
/-! SUPPORT. Proofs about how many cycles a command takes when the cipher core keeps its latency (spec/42_round_engine.md
R166, R167, R170, R171; spec/70_reset_and_hazards.md R242).

Each completed transaction is allotted two cycles: a key setup and an encryption take them by the latency of R170 and R171,
a time sample takes its own and the BATCH_CHECK that follows it. -/

namespace Sys2Proof.Machine

/-! ## The two cycles of a transaction -/

/-- The cycles taken that no completed transaction accounts for: one of the request that stands, when the last cycle was in
its sequencer state already, and the FINISH or FAIL of an ended command. -/
def cyclesSpent (last now : Fsm) : Nat :=
  match now with
  | .keysetup | .encA | .encB => if last = now then 1 else 0
  | .idle => 1
  | .t0 | .batchCheck | .sample | .finish | .fail => 0

/-- The cycles that the completed transactions may not have taken yet: the BATCH_CHECK after a time sample of CALIBRATE,
which the last sample may never see. -/
def cyclesOwed (o : Op) (now : Fsm) : Nat :=
  match now with
  | .batchCheck | .finish | .fail | .idle => if o = .calibrate then 1 else 0
  | .keysetup | .t0 | .encA | .encB | .sample => 0

/-- A core that keeps its latency answers no request in its first cycle (R170, R171). -/
theorem cyclesSpent_of_answer {last : Fsm} {s : State} (henv : timely last s) (hw : ¬ Waits (cycleInput s) s)
    (hreq : s.fsm = .keysetup ∨ s.fsm = .encA ∨ s.fsm = .encB) : cyclesSpent last s.fsm = 1 := by
  obtain ⟨-, hks, henc⟩ := henv
  have hsame : last = s.fsm := by
    by_contra hfirst
    obtain hf | hf := hreq
    · exact hw (.inl ⟨hf, hks hfirst hf⟩)
    · exact hw (.inr ⟨hf, henc hfirst hf⟩)
  obtain hf | hf | hf := hreq <;> simp [cyclesSpent, hsame, hf]

/-- Only CALIBRATE samples the time (R157, R160). -/
theorem op_of_onlyCalibrate {s : State} (h : BlockInv s) (hf : s.fsm.onlyCalibrate = true) : s.op = .calibrate := by
  cases ho : s.op
  case transform => simp [h.transform_path ho] at hf
  case calibrate => rfl

/-- No cycle of a command completes more than it pays for: the two cycles of its transaction are spent or owed. -/
theorem cyclesSpent_sequencerStep {last : Fsm} {inp : CycleInput} {s : State} (hinv : BlockInv s) (hb : s.fsm ≠ .idle)
    (hspent : ¬ Waits inp s → s.fsm = .keysetup ∨ s.fsm = .encA ∨ s.fsm = .encB → cyclesSpent last s.fsm = 1) :
    2 * (portEvents inp s).length + cyclesSpent s.fsm (sequencerStep s.fsm inp s).fsm + cyclesOwed s.op s.fsm ≤
      1 + cyclesSpent last s.fsm + cyclesOwed s.op (sequencerStep s.fsm inp s).fsm := by
  by_cases hw : Waits inp s
  · rw [sequencerStep_of_waits hw, portEvents_of_waits hw]
    have hwaited : cyclesSpent s.fsm s.fsm = 1 := by obtain ⟨hf, -⟩ | ⟨hf | hf, -⟩ := hw <;> simp [cyclesSpent, hf]
    simp only [List.length_nil]
    omega
  have hgo := sequencerStep_fsm_mem_targets hw
  have hanswered := hspent hw
  generalize (sequencerStep s.fsm inp s).fsm = next at hgo ⊢
  cases hf : s.fsm <;> simp only [hf, Fsm.targets, List.mem_cons, List.not_mem_nil, or_false] at hgo hanswered ⊢
  case idle => exact absurd hf hb
  case keysetup | encA | encB =>
    have hone : (portEvents inp s).length ≤ 1 := by simp only [portEvents, hf]; split <;> simp
    have hnew : cyclesSpent s.fsm next = 0 := by rw [hf]; revert hgo; cases next <;> decide
    rw [hf] at hnew
    rw [hanswered (by simp), hnew]
    simp only [cyclesOwed]
    omega
  case t0 | sample =>
    have ho := op_of_onlyCalibrate hinv (by simp [hf, Fsm.onlyCalibrate])
    obtain ⟨hnew, howed⟩ : cyclesSpent s.fsm next = 0 ∧ cyclesOwed .calibrate next = 1 := by
      rw [hf]; revert hgo; cases next <;> decide
    rw [hf] at hnew
    rw [ho, hnew, howed]
    simp only [portEvents, hf, cyclesOwed, List.length_cons, List.length_nil]
    omega
  case batchCheck =>
    have ho := op_of_onlyCalibrate hinv (by simp [hf, Fsm.onlyCalibrate])
    obtain rfl | rfl := hgo <;> simp [portEvents, hf, ho, cyclesSpent, cyclesOwed]
  case finish | fail => simp [portEvents, hf, hgo, cyclesSpent, cyclesOwed]

/-- What holds after `m` cycles of the command `o`, accepted in `s`, whose core keeps its latency. -/
structure TwoCyclesEach (o : Op) (s : State) (last : Fsm) (events : List PortEvent) (m : Nat) (u : State) : Prop where
  progress : CommandProgress o s events u
  cycles : 2 * events.length + cyclesSpent last u.fsm ≤ m + cyclesOwed o u.fsm

theorem twoCyclesEach_of_accepted {o : Op} {s : State} (ha : Accepted o s) : TwoCyclesEach o s .idle [] 0 s :=
  ⟨commandProgress_of_accepted ha, by simp [ha.fsm, cyclesSpent]⟩

theorem twoCyclesEach_step {o : Op} {s u v : State} {last : Fsm} {events : List PortEvent} {m : Nat}
    (h : TwoCyclesEach o s last events m u) (henv : timely last u) (hb : u.fsm ≠ .idle) (hstep : step u = .next v) :
    TwoCyclesEach o s u.fsm (events ++ portEvents (cycleInput u) u) (m + 1) v where
  progress := commandProgress_step h.progress henv.1 hb hstep
  cycles := by
    obtain ⟨w, he, rfl⟩ := sequencerStep_of_busy_step henv.1 hb hstep
    have hw := commandProgress_of_engine he h.progress
    have hfsm := fsm_of_engine he
    have hcycle := cyclesSpent_sequencerStep (last := last) (inp := cycleInput u) hw.inv (by rwa [hfsm])
      (by rw [waits_of_fsm hfsm, hfsm]; exact cyclesSpent_of_answer henv)
    rw [portEvents_of_engine _ he, hw.op, hfsm] at hcycle
    rw [List.length_append, hfsm]
    have := h.cycles
    omega

/-- Every state of a command's run with a core that keeps its latency. -/
theorem twoCyclesEach_of_busyRun {o : Op} {s t : State} {events : List PortEvent} {n : Nat} (ha : Accepted o s)
    (run : BusyRun timely .idle s events n t) : ∃ last, TwoCyclesEach o s last events n t := by
  simpa using busyRun_forward (TwoCyclesEach o s) (fun _ _ _ _ _ => twoCyclesEach_step) run [] 0
    (twoCyclesEach_of_accepted ha)

/-! ## The transactions of an ended command (R166, R167) -/

/-- A run stays one when less is asked of the environment. -/
theorem busyRun_mono {env env' : Fsm → State → Prop} (h : ∀ q u, env q u → env' q u) {p : Fsm} {s t : State}
    {events : List PortEvent} {n : Nat} (run : BusyRun env p s events n t) : BusyRun env' p s events n t := by
  induction run with
  | stop p s => exact .stop p s
  | cycle p s u t events n henv hb hstep _ ih => exact .cycle p s u t events n (h p s henv) hb hstep ih

section
variable {env : Fsm → State → Prop} {p : Fsm} {s t : State} {events : List PortEvent} {n : Nat}

/-- One key setup, and two encryptions in each round. -/
theorem transform_length_of_ended (henv : ∀ q u, env q u → noReset q u) (ha : Accepted .transform s)
    (run : BusyRun env p s events n t) (ht : t.fsm = .idle) : events.length = 1 + 2 * s.rounds.toNat := by
  obtain ⟨u, hu, hf, hrc, -⟩ := transform_finishes henv ha run ht
  rw [transform_length henv ha run, ht, if_neg nofun, hu.encrypted,
    encryptionsDone_of_not_inRound (by simp [hf, Fsm.inRound])]
  simp [commandCount, hu.op, hrc]

/-- One key setup, 16 encryptions in each batch, and a time sample at T0 and after each batch. -/
theorem calibrate_length_of_ended {m : Nat} (henv : ∀ q u, env q u → noReset q u) (ha : Accepted .calibrate s)
    (run : BusyRun env p s events n t) (ht : t.fsm = .idle) (hdone : t.done = true) (hm : t.result.toNat = 8 * m) :
    events.length = 1 + 16 * m + (1 + m) := by
  obtain ⟨hsetup, ⟨-, -, b, early, last, hr, hresult, hcount, -⟩ | ⟨-, -, b, early, hr, hresult, hcount, -⟩ |
    ⟨hfailed, -⟩⟩ := calibrateStopsAtTheBudget p s t events n ha (busyRun_mono henv run) ht
  · rw [length_eq_by_kind, hsetup, hcount, hr]
    simp only [List.length_map, List.length_append, List.length_cons, List.length_nil]
    omega
  · rw [length_eq_by_kind, hsetup, hcount, hr]
    simp only [List.length_map, List.length_cons, List.length_nil]
    omega
  · simp [hdone] at hfailed

end

/-! ## The cycles of an ended command (R242) -/

/-- Settles O50: two cycles for each transaction, and FINISH. -/
theorem transformTakesItsCycles : Obligations.TransformTakesItsCycles := by
  intro s t events n ha run ht
  obtain ⟨last, -, hcycles⟩ := twoCyclesEach_of_busyRun ha run
  have hlength := transform_length_of_ended (fun _ _ h => h.1) ha run ht
  simp only [ht, cyclesSpent, cyclesOwed, reduceCtorEq, if_false] at hcycles
  omega

/-- Settles O58: two cycles for each transaction, less the BATCH_CHECK the last sample may not need, and FINISH. -/
theorem calibrateTakesItsCycles : Obligations.CalibrateTakesItsCycles := by
  intro s t events n m ha run ht hdone hm
  obtain ⟨last, -, hcycles⟩ := twoCyclesEach_of_busyRun ha run
  have hlength := calibrate_length_of_ended (fun _ _ h => h.1) ha run ht hdone hm
  simp only [ht, cyclesSpent, cyclesOwed, if_true] at hcycles
  omega

end Sys2Proof.Machine
end
